-- ==== Sys2Proof/Word.lean ====
section
/-! DEFINITION. The words of the Timbeck 3160: bytes, the 32-bit millisecond counts, the ranges of
the numbers by which the spec names its items, and the shape of a numbered table. -/

namespace Sys2Proof

/-- One byte of a scan line frame or a desk telegram (R169, R170). -/
abbrev Byte := BitVec 8

/-- An elapsed time or a desk time: a 32-bit count of milliseconds that wraps (R160). -/
abbrev Time := BitVec 32

/-- The microseconds of the line clock within the present millisecond (R76). -/
abbrev Micros := Fin 1000

/-- A logical module, 0 to 31. -/
abbrev ModuleNo := Fin 32

/-- A contact input of a CIM, 0 to 63. -/
abbrev ContactNo := Fin 64

/-- A drive channel of an RDM, 0 to 31. -/
abbrev ChannelNo := Fin 32

/-- A point, 0 to 1023. -/
abbrev PointNo := Fin 1024

/-- An aspect group, 0 to 127. -/
abbrev GroupNo := Fin 128

/-- A Pattern Table index, 0 to 511. -/
abbrev PatternNo := Fin 512

/-- A control, 0 to 255. -/
abbrev ControlNo := Fin 256

/-- A command slot, 0 to 15. -/
abbrev SlotNo := Fin 16

/-- A table of `n` numbered entries, held as the entries that differ from the table's empty entry,
in ascending number. `Machine/Table.lean` reads and writes it; `Table.wf` is its canonical form. -/
abbrev Table (n : Nat) (α : Type) := List (Fin n × α)

end Sys2Proof
end

