-- ==== Sys2Proof/Syntax.lean ====
section
/-! DEFINITION. The commands of the block: one constructor for each row of `spec/opcode_table.json`,
in the table's order. A desk telegram is dispatched from the receive buffer that holds it (R137), so
the rows of dispatched telegrams carry no operand: what the telegram names stands in its body. -/

namespace Sys2Proof

/-- The level of the MAINT key switch (R148, R158). -/
inductive KeyLevel where
  | presented
  | withdrawn
  deriving DecidableEq, Repr

/-- A whole reply on the scan line: its frame, from the line address to the CRC, and the line clock within
the present millisecond at the end of its last byte (R76, R169). -/
structure Reply where
  frame : List Byte
  clock : Micros
  deriving DecidableEq, Repr

/-- The first byte of a reply on the scan line: the line clock within the present millisecond as it begins,
and how long bytes go on after it, in microseconds from its end to the end of the last byte before the line
is silent for longer than the reply window (R76). -/
structure FirstByte where
  clock : Micros
  more : BitVec 32
  deriving DecidableEq, Repr

/-- The commands, one for each row of the table of operations and events. -/
inductive Instr where
  /-- POWER_ON_RESET (R167); `key` is the level of the MAINT key input at the reset (R148). -/
  | powerOnReset (key : KeyLevel)
  /-- RECEIVE_TELEGRAM (R135); the bytes after the sync byte, from the length field to the CRC. -/
  | receiveTelegram (bytes : List Byte)
  /-- RECEIVE_TRUNCATED (R135); the gap since the telegram's last byte, in microseconds. -/
  | receiveTruncated (gap : Nat)
  /-- UNKNOWN_KIND (R137). -/
  | unknownKind
  /-- CONTROL (R105). -/
  | control
  /-- CANCEL (R114). -/
  | cancel
  /-- INTERROGATE (R128). -/
  | interrogate
  /-- TIME_SET (R161). -/
  | timeSet
  /-- MODE_REQUEST_OPERATE (R156). -/
  | modeRequestOperate
  /-- MODE_REQUEST_MAINTENANCE (R156). -/
  | modeRequestMaintenance
  /-- MODE_REQUEST_NEITHER (R156). -/
  | modeRequestNeither
  /-- TABLE_WRITE (R150). -/
  | tableWrite
  /-- TABLE_READ (R152). -/
  | tableRead
  /-- TABLE_COMMIT (R154). -/
  | tableCommit
  /-- SUBSTITUTE (R15). -/
  | substitute
  /-- RELEASE (R16). -/
  | release
  /-- TRACE_SELECT_POINT (R162). -/
  | traceSelectPoint
  /-- TRACE_SELECT_NONE (R162). -/
  | traceSelectNone
  /-- COUNTER_CLEAR (R90). -/
  | counterClear
  /-- RESTART (R140). -/
  | restart
  /-- RESTART_RESET (R140); `key` is the level of the MAINT key input at the reset (R148). -/
  | restartReset (key : KeyLevel)
  /-- DIAG_READ_POINT (R165). -/
  | diagReadPoint
  /-- DIAG_READ_GROUP (R165). -/
  | diagReadGroup
  /-- DIAG_READ_MODULE (R165). -/
  | diagReadModule
  /-- DIAG_READ_SLOT (R165). -/
  | diagReadSlot
  /-- DIAG_READ_PART (R165). -/
  | diagReadPart
  /-- TRANSMIT_END (R142). -/
  | transmitEnd
  /-- IDLE_INTERVAL_EXPIRY (R144). -/
  | idleIntervalExpiry
  /-- DESK_SILENCE_EXPIRY (R146). -/
  | deskSilenceExpiry
  /-- KEY_WITHDRAWAL (R158); how long the MAINT contact has stood withdrawn, in ms (R167). -/
  | keyWithdrawal (stood : Nat)
  /-- KEY_PRESENTED (R158); how long the MAINT contact has stood presented, in ms (R167). -/
  | keyPresented (stood : Nat)
  /-- CYCLE_START (R71). -/
  | cycleStart
  /-- COMMIT_SWAP (R155). -/
  | commitSwap
  /-- INPUT_POLL (R75). -/
  | inputPoll
  /-- DRIVE_POLL (R93). -/
  | drivePoll
  /-- REPLY_TIMEOUT (R76); the line clock within the present millisecond, at or after the window's end. -/
  | replyTimeout (clock : Micros)
  /-- REPLY_SILENCE (R76); the line clock within the present millisecond, when the line has been silent
  for longer than the reply window. -/
  | replySilence (clock : Micros)
  /-- INPUT_REPLY (R79); the whole reply. -/
  | inputReply (reply : Reply)
  /-- DRIVE_REPLY (R80); the whole reply. -/
  | driveReply (reply : Reply)
  /-- IMAGE_ARRIVAL (R9). -/
  | imageArrival
  /-- PULSE_END (R108) of one slot. -/
  | pulseEnd (slot : SlotNo)
  /-- PROVING_DEADLINE (R110) of one slot. -/
  | provingDeadline (slot : SlotNo)
  /-- RECEIVE_OVERLONG (R135); the body length the length field announces. -/
  | receiveOverlong (length : BitVec 16)
  /-- SYNC_BYTE (R135). -/
  | syncByte
  /-- REPLY_FIRST_BYTE (R76); when the byte begins, and how long bytes go on after it. -/
  | replyFirstByte (byte : FirstByte)
  /-- RESET_ASSERTED (R167). -/
  | resetAsserted
  deriving DecidableEq, Repr

end Sys2Proof
end

