-- ==== Sys2Proof/Config.lean ====
section
/-! DEFINITION. What the spec fixes for the part as a whole, and the one value it leaves open. -/

namespace Sys2Proof.Config

/-- The Change Queue holds at most 256 records (R122). -/
def queueCapacity : Nat := 256

/-- An INDICATION carries at most 16 records (R131). -/
def recordsPerIndication : Nat := 16

/-- The SLC has two reply banks (R73). -/
def replyBanks : Nat := 2

/-- The DLI has two receive buffers (R136). -/
def receiveBuffers : Nat := 2

/-- Every counter of R89 stays at 65,535 when it is due to rise. -/
def counterLimit : Nat := 65535

/-- Measured times saturate at 65,535 ms (R30, R42, R47). -/
def measureLimit : Nat := 65535

/-- The good and miss counts saturate at 15 (R82, R83). -/
def scanCountLimit : Nat := 15

/-- The longest body of a desk telegram in bytes (R135). -/
def maxBody : Nat := 256

/-- A gap above 5 ms between two bytes of a telegram truncates it (R135), in microseconds. -/
def byteGapLimit : Nat := 5000

/-- The MAINT contact must stand at a new level for 20 ms (R167). -/
def keyStandTime : Nat := 20

/-- A byte takes 10 microseconds on the scan line: a start bit, 8 data bits and a stop bit at 1 Mbit/s
(12_signals_frame_layouts_and_characteristics.md, the table of section 12.1). -/
def byteTime : Nat := 10

/-- A frame has 5 bytes beside its data: address, kind, length and CRC (R169). -/
def frameOverhead : Nat := 5

/-- The longest reply kind has 9 data bytes (R169). -/
def longestReplyData : Nat := 9

/-- FREE VALUE. R47 divides by the period P and does not say what the duty is when P is 0 (both
halves 0). Log entry 13. -/
opaque dutyAtZeroPeriod : Nat

end Sys2Proof.Config
end

