-- ==== Sys2Proof/Machine/State.lean ====
section
/-! DEFINITION. The state of the Timbeck 3160 as plain data, one structure for each block of the
part (00_scope.md, block overview), the two ways a step can stop, and the state after reset. -/

namespace Sys2Proof.Machine

/-! ### Value sets -/

/-- The mode kept by the TS (R148). -/
inductive Mode where
  | unconfigured
  | operate
  | maintenance
  deriving DecidableEq, Repr

/-- The use of a Module Map entry (R148, R68). -/
inductive Use where
  | unused
  | input
  | output
  deriving DecidableEq, Repr

/-- The class of a point (R1). -/
inductive PointClass where
  | none
  | single
  | pair
  | flasher
  deriving DecidableEq, Repr

/-- The cause carried by UNKNOWN (R2). -/
inductive Cause where
  | module
  | wetting
  | init
  deriving DecidableEq, Repr

/-- The state values of the classes other than UNKNOWN (R2). -/
inductive StateValue where
  | off
  | on
  | down
  | up
  | faultOpen
  | faultBoth
  | dark
  | lit
  | flashing
  | irregular
  deriving DecidableEq, Repr

/-- An evaluated or reported state: UNKNOWN with its cause, or a value (R2). -/
inductive PointState where
  | unknown (cause : Cause)
  | known (value : StateValue)
  deriving DecidableEq, Repr

/-- The code of a group: UNKNOWN with its cause, or 0 (NO_ASPECT) to 15 (R56). -/
inductive GroupCode where
  | unknown (cause : Cause)
  | code (n : Fin 16)
  deriving DecidableEq, Repr

/-- The state of a module (R67). -/
inductive ModuleState where
  | unused
  | starting
  | active
  | suspect
  | lost
  deriving DecidableEq, Repr

/-- A drive code (R91). -/
inductive DriveCode where
  | off
  | on
  | flash
  deriving DecidableEq, Repr

/-- The mode of a command (R103). -/
inductive CommandMode where
  | pulse
  | set
  | clear
  | flash
  deriving DecidableEq, Repr

/-- The result of a command (R107), in the order of the opening file's list. -/
inductive CommandResult where
  | executed
  | proved
  | notProved
  | unprovable
  | already
  | cancelled
  | cancelledLink
  | outputFault
  | moduleLost
  | rejectedNotConfigured
  | rejectedCommitPending
  | rejectedUndefined
  | rejectedModule
  | rejectedChannelFault
  | rejectedBusy
  | rejectedNoSlot
  deriving DecidableEq, Repr

/-- The status of an ANSWER (R141), in the order of its table. -/
inductive AnswerStatus where
  | accepted
  | clamped
  | notPermitted
  | busy
  | outOfRange
  | invalidEntry
  | unknownKind
  | badLength
  | notActive
  | committed
  | withdrawn
  deriving DecidableEq, Repr

/-- The six tables (R148). -/
inductive TableId where
  | moduleMap
  | points
  | groups
  | patterns
  | commands
  | system
  deriving DecidableEq, Repr

/-- The fourteen kinds of desk telegram (R170). -/
inductive DeskKind where
  | control
  | cancel
  | interrogate
  | timeSet
  | modeRequest
  | tableWrite
  | tableRead
  | tableCommit
  | substitute
  | release
  | diagRead
  | traceSelect
  | counterClear
  | restart
  deriving DecidableEq, Repr

/-! ### Table entries -/

/-- A contact of a point: logical module, contact input and invert flag (R1). -/
structure Contact where
  mod : ModuleNo
  contact : ContactNo
  invert : Bool
  deriving DecidableEq, Repr

/-- An entry of the Point Table (R1). -/
structure PointEntry where
  cls : PointClass
  a : Contact
  b : Contact
  report : Bool
  pickFilter : Nat
  dropFilter : Nat
  transitLimit : Nat
  faultFilter : Nat
  alarmLimit : Nat
  flashFilter : Nat
  halfMin : Nat
  halfMax : Nat
  target : Nat
  deriving DecidableEq, Repr

/-- The empty Point Table entry (R1). -/
def PointEntry.empty : PointEntry :=
  { cls := .none, a := ⟨0, 0, false⟩, b := ⟨0, 0, false⟩, report := false, pickFilter := 0,
    dropFilter := 0, transitLimit := 0, faultFilter := 0, alarmLimit := 0, flashFilter := 0,
    halfMin := 50, halfMax := 50, target := 2 }

/-- An entry of the Group Table (R54). -/
structure GroupEntry where
  memberCount : Fin 7
  members : Vector PointNo 6
  firstPattern : PatternNo
  patternCount : Nat
  settleTime : Nat
  report : Bool
  deriving DecidableEq, Repr

/-- The empty Group Table entry (R54). -/
def GroupEntry.empty : GroupEntry :=
  { memberCount := 0, members := #v[0, 0, 0, 0, 0, 0], firstPattern := 0, patternCount := 1,
    settleTime := 0, report := false }

/-- An entry of the Pattern Table: a required state for each member position, `none` being ANY, and
an aspect code (R55). -/
structure PatternEntry where
  required : Vector (Option StateValue) 6
  aspect : Fin 16
  deriving DecidableEq, Repr

/-- The empty Pattern Table entry (R55). -/
def PatternEntry.empty : PatternEntry :=
  { required := #v[none, none, none, none, none, none], aspect := 1 }

/-- An entry of the Command Table (R103). -/
structure CommandEntry where
  defined : Bool
  mod : ModuleNo
  channel : ChannelNo
  mode : CommandMode
  pulseTime : Nat
  proving : Option PointNo
  expected : StateValue
  provingTime : Nat
  endOnProof : Bool
  deriving DecidableEq, Repr

/-- The empty Command Table entry (R103). -/
def CommandEntry.empty : CommandEntry :=
  { defined := false, mod := 0, channel := 0, mode := .pulse, pulseTime := 50, proving := none,
    expected := .off, provingTime := 100, endOnProof := false }

/-- An entry of the Module Map (R148). -/
structure ModuleEntry where
  use : Use
  address : Nat
  deriving DecidableEq, Repr

/-- The empty Module Map entry (R148). -/
def ModuleEntry.empty : ModuleEntry := { use := .unused, address := 1 }

/-- The System Record (R149). -/
structure SystemRecord where
  scanPeriod : Nat
  replyWindow : Nat
  retries : Nat
  lossThreshold : Nat
  recoveryCount : Nat
  settleTime : Nat
  silenceTime : Nat
  idleInterval : Nat
  watermark : Nat
  deriving DecidableEq, Repr

/-- The System Record at its defaults (R149). -/
def SystemRecord.defaults : SystemRecord :=
  { scanPeriod := 10, replyWindow := 400, retries := 1, lossThreshold := 3, recoveryCount := 3,
    settleTime := 100, silenceTime := 5000, idleInterval := 1000, watermark := 192 }

/-- One bank of the Table Store: one of each of the six tables (R148). -/
structure Tables where
  moduleMap : Table 32 ModuleEntry
  points : Table 1024 PointEntry
  groups : Table 128 GroupEntry
  patterns : Table 512 PatternEntry
  commands : Table 256 CommandEntry
  system : SystemRecord
  deriving DecidableEq, Repr

/-- The empty configuration (R148). -/
def Tables.empty : Tables :=
  { moduleMap := [], points := [], groups := [], patterns := [], commands := [],
    system := .defaults }

/-! ### Time Base and Table Store -/

/-- The Time Base (R160). -/
structure TimeBase where
  elapsed : Time
  offset : Time
  deriving DecidableEq, Repr

/-- The Table Store (R148). -/
structure TableStore where
  active : Tables
  shadow : Tables
  mode : Mode
  commitPending : Bool
  key : KeyLevel
  deriving DecidableEq, Repr

/-! ### Scan Line Controller -/

/-- The latest image of a CIM: 64 raw contact levels with their sample time (R67). -/
structure LatestImage where
  levels : BitVec 64
  time : Time
  deriving DecidableEq, Repr

/-- The latest readback of an RDM: 32 levels with their acceptance time (R67). -/
structure LatestReadback where
  levels : BitVec 32
  time : Time
  deriving DecidableEq, Repr

/-- The record of one logical module (R67). -/
structure ModuleRec where
  state : ModuleState
  good : Nat
  miss : Nat
  wetting : Bool
  image : Option LatestImage
  readback : Option LatestReadback
  replyTimeouts : Nat
  crcErrors : Nat
  formatErrors : Nat
  missedScans : Nat
  lossEvents : Nat
  deriving DecidableEq, Repr

/-- A module record after either reset (R67). -/
def ModuleRec.init : ModuleRec :=
  { state := .unused, good := 0, miss := 0, wetting := false, image := none, readback := none,
    replyTimeouts := 0, crcErrors := 0, formatErrors := 0, missedScans := 0, lossEvents := 0 }

/-- An image held in a reply bank (R73). -/
structure BankImage where
  mod : ModuleNo
  levels : BitVec 64
  time : Time
  deriving DecidableEq, Repr

/-- Where the scan in progress stands on the line (R75, R76): its next attempt is still to be sent,
its poll has been sent and no byte of a reply has begun, or a reply is being received. -/
inductive LinePhase where
  | toSend
  | awaiting
  | receiving
  deriving DecidableEq, Repr

/-- A reading of the line clock: the elapsed time and the microseconds within its millisecond (R76). -/
structure LineTime where
  ms : Time
  micros : Micros
  deriving DecidableEq, Repr

/-- The scan in progress: its module, how many attempts have been sent, the line, and the moment from
which the SLC measures: the end of the poll's last byte while it awaits a reply, the beginning of the
reply's first byte while it receives one (R70, R76, R78). `more` stands for what is heard on the line while a
reply is received: the microseconds from the end of its first byte to the end of the last byte before a
silence longer than the reply window (log entry 8). -/
structure Scan where
  mod : ModuleNo
  sent : Nat
  line : LinePhase
  since : LineTime
  more : BitVec 32
  deriving DecidableEq, Repr

/-- The scan cycle in progress: its start time, whether its first poll is held for a commit (R72),
the lowest logical number not yet scanned, and the scan in progress (R70). -/
structure Cycle where
  start : Time
  held : Bool
  next : Nat
  scan : Option Scan
  deriving DecidableEq, Repr

/-- The Scan Line Controller: module records, reply banks (the held images, oldest first), the cycle
schedule, whether the SLC waits to start a cycle whose due time was reached while a cycle ran (R71),
the cycle in progress and CYCLE_OVERRUNS (R67, R69); `lineClock` is the line clock's last reading
within the present millisecond (R76). -/
structure ScanLine where
  modules : Table 32 ModuleRec
  banks : List BankImage
  gridOrigin : Option Time
  nextDue : Option Time
  lateWaiting : Bool
  cycle : Option Cycle
  cycleOverruns : Nat
  lineClock : Micros
  deriving DecidableEq, Repr

/-! ### Point Evaluator and Aspect Group Evaluator -/

/-- A candidate of a SINGLE or PAIR point (R22). -/
structure Candidate where
  target : StateValue
  start : Time
  deriving DecidableEq, Repr

/-- A level candidate of a FLASHER point (R38). -/
structure LevelCandidate where
  level : Bool
  start : Time
  deriving DecidableEq, Repr

/-- The state record of one point (R4). `stale` is the model's own (log entry 27): the working fields
stem from an earlier period of deliverability, and the next sample starts without them. -/
structure PointRecord where
  evaluated : PointState
  candidate : Option Candidate
  openSince : Option Time
  pendingTransfer : Option Nat
  lastTransfer : Option Nat
  slowTransfer : Bool
  filteredLevel : Option Bool
  levelCandidate : Option LevelCandidate
  lastEdge : Option Time
  lastOnHalf : Option Nat
  lastOffHalf : Option Nat
  integration : Nat
  substitute : Option StateValue
  stale : Bool
  deriving DecidableEq, Repr

/-- A point record after reset and re-initialisation (R4). -/
def PointRecord.init : PointRecord :=
  { evaluated := .unknown .init, candidate := none, openSince := none, pendingTransfer := none,
    lastTransfer := none, slowTransfer := false, filteredLevel := none, levelCandidate := none,
    lastEdge := none, lastOnHalf := none, lastOffHalf := none, integration := 0,
    substitute := none, stale := false }

/-- Raw levels of contact A and, for a PAIR point, of contact B (R163). -/
structure TraceLevels where
  a : Bool
  b : Option Bool
  deriving DecidableEq, Repr

/-- The Point Evaluator: point records and the trace selection (R4, section 11.2). -/
structure PointEvaluator where
  points : Table 1024 PointRecord
  tracedPoint : Option PointNo
  lastOffered : Option TraceLevels
  deriving DecidableEq, Repr

/-- The state record of one group (R56). -/
structure GroupRecord where
  code : GroupCode
  noMatchStart : Option Time
  deriving DecidableEq, Repr

/-- A group record after reset and re-initialisation (R56). -/
def GroupRecord.init : GroupRecord := { code := .unknown .init, noMatchStart := none }

/-- A hand-over to the AGE (R57): whether it is an arrival's, its time, the groups not yet evaluated in
ascending number, and the groups whose no-match start it makes absent. -/
structure HandOver where
  arrival : Bool
  time : Time
  groups : List GroupNo
  clears : List GroupNo
  deriving DecidableEq, Repr

/-- The AGE's work: the hand-overs not yet finished, oldest first (R58). `pace` is the model's own (log
entry 11): how many turns the AGE takes within each of the next events that hand over; where it says
nothing, the AGE finishes every hand-over within the event. -/
structure AgeWork where
  handOvers : List HandOver
  pace : List Nat
  deriving DecidableEq, Repr

/-! ### Output Drive Unit and Command Supervisor -/

/-- The condition of a channel with the start that belongs to it: the mismatch start is present only
in normal condition, the agreement start only in FAULTED condition (R91). -/
inductive Condition where
  | normal (mismatch : Option Time)
  | faulted (agreement : Option Time)
  deriving DecidableEq, Repr

/-- The record of one drive channel (R91). -/
structure Channel where
  drive : DriveCode
  condition : Condition
  lastSent : Option DriveCode
  deriving DecidableEq, Repr

/-- A channel record when it is created (R91). -/
def Channel.init : Channel := { drive := .off, condition := .normal none, lastSent := none }

/-- The phase of an occupied slot (R104); a FREE slot is an absent one. -/
inductive Phase where
  | driving
  | confirming
  | proving
  | finishing
  deriving DecidableEq, Repr

/-- The contents of an occupied slot (R104). -/
structure Slot where
  phase : Phase
  control : ControlNo
  mod : ModuleNo
  channel : ChannelNo
  mode : CommandMode
  proving : Option (PointNo × StateValue)
  endOnProof : Bool
  acceptedAt : Time
  pulseEnd : Option Time
  deadline : Option Time
  result : Option CommandResult
  deriving DecidableEq, Repr

/-! ### Change Queue -/

/-- The optional fields of a POINT record (R14). -/
inductive PointExtra where
  | none
  | transfer (time : Nat) (slow : Bool)
  | period (period duty : Nat)
  deriving DecidableEq, Repr

/-- What a record reports (R123); an unknown cause is part of the state or code. -/
inductive RecordContent where
  | point (p : PointNo) (reported : PointState) (substituted : Bool) (extra : PointExtra)
  | group (g : GroupNo) (code : GroupCode)
  | commandResult (c : ControlNo) (result : CommandResult)
  | module (m : ModuleNo) (state : ModuleState)
  | channel (m : ModuleNo) (ch : ChannelNo) (clear : Bool)
  | trace (p : PointNo) (levels : TraceLevels) (gap : Bool)
  | overflow
  | refreshEnd
  deriving DecidableEq, Repr

/-- A record with its REFRESH flag and its desk time (R123). -/
structure Record where
  refresh : Bool
  deskTime : Time
  content : RecordContent
  deriving DecidableEq, Repr

/-- The refresh cursor while a refresh is in progress: phase and next number (R122, R129). -/
inductive Cursor where
  | points (next : Nat)
  | groups (next : Nat)
  | modules (next : Nat)
  | atEnd
  deriving DecidableEq, Repr

/-- The Change Queue, oldest record first, with the refresh cursor and the trace-gap flag (R122) and
QUEUE_OVERFLOWS (R89). -/
structure ChangeQueue where
  queue : List Record
  cursor : Option Cursor
  traceGap : Bool
  queueOverflows : Nat
  deriving DecidableEq, Repr

/-! ### Desk Link Interface -/

/-- The desk receiver (R135). -/
inductive Receiver where
  | hunting
  | assembling
  deriving DecidableEq, Repr

/-- A valid telegram in a receive buffer with its reception time (R136). -/
structure RxTelegram where
  kind : Byte
  body : List Byte
  received : Time
  deriving DecidableEq, Repr

/-- An ANSWER: the kind of the telegram answered, the status and the payload bytes (R141). -/
structure Answer where
  request : Byte
  status : AnswerStatus
  payload : List Byte
  deriving DecidableEq, Repr

/-- The header of an INDICATION (R143). -/
structure Header where
  mode : Mode
  configured : Bool
  commitPending : Bool
  keyPresented : Bool
  queueHigh : Bool
  linkSilent : Bool
  moduleLost : Bool
  channelFaulted : Bool
  deskTime : Time
  count : Nat
  deriving DecidableEq, Repr

/-- A telegram in transmission to the desk (R142). -/
inductive OutTelegram where
  | answer (a : Answer)
  | indication (header : Header) (records : List Record)
  deriving DecidableEq, Repr

/-- The Desk Link Interface (R135, R136, R140 to R147): receiver, receive buffers (the telegrams
held, oldest first), answer list (oldest first), RESTART in progress, the transmitter (`none` is
free), the last send end, the silence start, LINK_SILENT and three counters. `expiryOpen` is the
model's own (log entry 28): a desk-silence expiry has been taken and its moment is not yet over. -/
structure DeskLink where
  receiver : Receiver
  buffers : List RxTelegram
  answers : List Answer
  restarting : Bool
  transmitter : Option OutTelegram
  lastSendEnd : Time
  silenceStart : Time
  linkSilent : Bool
  crcErrors : Nat
  rxOverruns : Nat
  silenceEvents : Nat
  expiryOpen : Bool
  deriving DecidableEq, Repr

/-! ### The part -/

/-- The state of the part. `resetHeld` is the RESET input held low (R167); `channels` holds the
channel records of a logical module, `none` where the ODU has no records for it (R91); a FREE slot is
`none` (R104). `pending` is the queue of commands that wait, first in, first out; it is the model's
own (log entry 1). -/
structure State where
  tb : TimeBase
  ts : TableStore
  slc : ScanLine
  pe : PointEvaluator
  groups : Table 128 GroupRecord
  age : AgeWork
  channels : Table 32 (Option (Table 32 Channel))
  slots : Table 16 (Option Slot)
  cq : ChangeQueue
  dli : DeskLink
  resetHeld : Bool
  pending : List Instr
  deriving DecidableEq, Repr

/-- A FAULT of the model would stop a run where the spec gives an operation no effect at all. No
operation of this spec is without an effect, so the type has no constructor: no step faults. -/
inductive Fault where
  deriving DecidableEq, Repr

/-- Why a command is refused. -/
inductive Refusal where
  /-- Raised by an arm of `exec` whose command has no meaning yet. No arm raises it. Safe. -/
  | notModelled (mnemonic : String)
  deriving DecidableEq, Repr

/-- The part right after a reset at which the MAINT key input stands at `key` (R18, R65, R67, R88,
R91, R101, R104, R120, R122, R147, R148, R160, R164). -/
def State.afterReset (key : KeyLevel) : State :=
  { tb := { elapsed := 0, offset := 0 }
    ts := { active := .empty, shadow := .empty, mode := .unconfigured, commitPending := false,
            key := key }
    slc := { modules := [], banks := [], gridOrigin := none, nextDue := none, lateWaiting := false,
             cycle := none, cycleOverruns := 0, lineClock := 0 }
    pe := { points := [], tracedPoint := none, lastOffered := none }
    groups := []
    age := { handOvers := [], pace := [] }
    channels := []
    slots := []
    cq := { queue := [], cursor := none, traceGap := false, queueOverflows := 0 }
    dli := { receiver := .hunting, buffers := [], answers := [], restarting := false,
             transmitter := none, lastSendEnd := 0, silenceStart := 0, linkSilent := false,
             crcErrors := 0, rxOverruns := 0, silenceEvents := 0, expiryOpen := false }
    resetHeld := false
    pending := [] }

/-- The machine after reset. DESIGN CHOICE: the sensed key level is the level of the MAINT key input
at the reset (R148), which is an input; here it is withdrawn (log entry 6). -/
def State.reset : State := State.afterReset .withdrawn

end Sys2Proof.Machine
end

