-- ==== Sys2Proof/Machine/Table.lean ====
section
/-! DEFINITION. Reading and writing a numbered table held in canonical form: its entries that differ
from the empty entry `d`, in strictly ascending number. -/

namespace Sys2Proof.Table

variable {n : Nat} {α : Type}

/-- Entry `i` of a table whose unlisted entries are `d`. -/
def get (d : α) : Table n α → Fin n → α
  | [], _ => d
  | (k, v) :: rest, i => if k = i then v else get d rest i

/-- The table without entry `i`. -/
def erase (t : Table n α) (i : Fin n) : Table n α := t.filter fun e => e.1 ≠ i

/-- The table with a further entry at its place in the ascending order. -/
def insert (i : Fin n) (v : α) : Table n α → Table n α
  | [] => [(i, v)]
  | (k, w) :: rest => if i < k then (i, v) :: (k, w) :: rest else (k, w) :: insert i v rest

/-- The table with entry `i` replaced by `v`; writing the empty entry removes the listed one. -/
def set [DecidableEq α] (d : α) (t : Table n α) (i : Fin n) (v : α) : Table n α :=
  if v = d then erase t i else insert i v (erase t i)

/-- The table whose entry `i` is `f i`. -/
def tabulate [DecidableEq α] (d : α) (f : Fin n → α) : Table n α :=
  (List.finRange n).filterMap fun i => if f i = d then none else some (i, f i)

/-- The numbers that the table lists, ascending when it is in canonical form. -/
def keys (t : Table n α) : List (Fin n) := t.map Prod.fst

/-- The table with every listed entry `i` replaced by its image; for an `f` that maps the empty entry
to itself this is the image of the whole table. -/
def update [DecidableEq α] (d : α) (f : Fin n → α → α) (t : Table n α) : Table n α :=
  (keys t).foldl (fun acc i => set d acc i (f i (get d t i))) []

/-- The listed numbers whose entry satisfies `p`. -/
def keysWhere (d : α) (t : Table n α) (p : α → Bool) : List (Fin n) :=
  (keys t).filter fun i => p (get d t i)

/-- The canonical form: numbers strictly ascending, and no listed entry equal to the empty one. -/
def wf [DecidableEq α] (d : α) (t : Table n α) : Bool :=
  decide ((keys t).Pairwise (· < ·)) && t.all fun e => e.2 ≠ d

end Sys2Proof.Table
end

