-- ==== Sys2Proof/Machine/Ops.lean ====
section
/-! DEFINITION. The operations every block shares: intervals and desk times, the records and entries
of each kind by number, counters, and handing a record to the Change Queue. -/

namespace Sys2Proof.Machine

/-! ### Time (R19, R160) -/

/-- d(a, b): the time elapsed forward from `a` to `b` (R19). -/
def interval (a b : Time) : Nat := (b - a).toNat

/-- An expiry of the elapsed time has fallen due: the present time is at it or less than half the
range of the counter beyond it (R104). -/
def reached (due now : Time) : Bool := interval due now < 2147483648

/-- The elapsed time `t` moved forward by `ms` milliseconds. -/
def after (t : Time) (ms : Nat) : Time := t + BitVec.ofNat 32 ms

/-- The present elapsed time. -/
def State.now (s : State) : Time := s.tb.elapsed

/-- The desk time of an elapsed time under the offset standing now (R160). -/
def State.deskTime (s : State) (t : Time) : Time := t + s.tb.offset

/-- A counter that is due to rise (R89). -/
def bump (c : Nat) : Nat := if c < Config.counterLimit then c + 1 else c

/-! ### Entries of the ACTIVE bank -/

/-- The Module Map entry of a logical module in one bank. -/
def Tables.moduleEntry (t : Tables) (m : ModuleNo) : ModuleEntry := t.moduleMap.get .empty m

/-- The Point Table entry of a point in one bank. -/
def Tables.pointEntry (t : Tables) (p : PointNo) : PointEntry := t.points.get .empty p

/-- The Group Table entry of a group in one bank. -/
def Tables.groupEntry (t : Tables) (g : GroupNo) : GroupEntry := t.groups.get .empty g

/-- The Pattern Table entry of an index in one bank. -/
def Tables.patternEntry (t : Tables) (i : PatternNo) : PatternEntry := t.patterns.get .empty i

/-- The Command Table entry of a control in one bank. -/
def Tables.commandEntry (t : Tables) (c : ControlNo) : CommandEntry := t.commands.get .empty c

/-- The System Record in force. -/
def State.system (s : State) : SystemRecord := s.ts.active.system

/-- The use of a logical module in the ACTIVE Module Map (R68). -/
def State.useOf (s : State) (m : ModuleNo) : Use := (s.ts.active.moduleEntry m).use

/-- The part is configured: it has had a commit since the last reset (R143). -/
def State.configured (s : State) : Bool := s.ts.mode ≠ .unconfigured

/-- The number of the point at a position of a group's member list (R54). -/
def GroupEntry.memberList (e : GroupEntry) : List PointNo := e.members.toList.take e.memberCount

/-! ### Records by number -/

/-- The record of a logical module (R67). -/
def State.moduleRec (s : State) (m : ModuleNo) : ModuleRec := s.slc.modules.get .init m

/-- The state with one module record replaced. -/
def State.setModuleRec (s : State) (m : ModuleNo) (r : ModuleRec) : State :=
  { s with slc := { s.slc with modules := s.slc.modules.set .init m r } }

/-- The state record of a point (R4). -/
def State.pointRec (s : State) (p : PointNo) : PointRecord := s.pe.points.get .init p

/-- The state with one point record replaced. -/
def State.setPointRec (s : State) (p : PointNo) (r : PointRecord) : State :=
  { s with pe := { s.pe with points := s.pe.points.set .init p r } }

/-- The state record of a group (R56). -/
def State.groupRec (s : State) (g : GroupNo) : GroupRecord := s.groups.get .init g

/-- The state with one group record replaced. -/
def State.setGroupRec (s : State) (g : GroupNo) (r : GroupRecord) : State :=
  { s with groups := s.groups.set .init g r }

/-- The channel records of a logical module, if the ODU holds any (R91). -/
def State.channelBank (s : State) (m : ModuleNo) : Option (Table 32 Channel) :=
  s.channels.get none m

/-- The channel record of a channel, if the ODU holds one (R91). -/
def State.channel (s : State) (m : ModuleNo) (ch : ChannelNo) : Option Channel :=
  (s.channelBank m).map fun bank => bank.get .init ch

/-- The state with one channel record replaced; nothing where the ODU holds no record (R91). -/
def State.setChannel (s : State) (m : ModuleNo) (ch : ChannelNo) (c : Channel) : State :=
  match s.channelBank m with
  | none => s
  | some bank => { s with channels := s.channels.set none m (some (bank.set .init ch c)) }

/-- A command slot: `none` is FREE (R104). -/
def State.slot (s : State) (k : SlotNo) : Option Slot := s.slots.get none k

/-- The state with one slot replaced. -/
def State.setSlot (s : State) (k : SlotNo) (o : Option Slot) : State :=
  { s with slots := s.slots.set none k o }

/-! ### The Change Queue (R124 to R128) -/

/-- A record formed for the queue, with the desk time of elapsed time `t` (R123, R160). -/
def State.record (s : State) (t : Time) (content : RecordContent) : Record :=
  { refresh := false, deskTime := s.deskTime t, content := content }

/-- Starting or restarting the refresh: the cursor goes to POINTS, next 0 (R128). -/
def State.startRefresh (s : State) : State :=
  { s with cq := { s.cq with cursor := some (.points 0) } }

/-- Queue overflow: the queue and the record handed are discarded, QUEUE_OVERFLOWS rises, an OVERFLOW
record of the present time is queued and the refresh starts from the beginning (R127). -/
def State.overflowQueue (s : State) : State :=
  { s with cq := { s.cq with
      queue := [s.record s.now .overflow]
      queueOverflows := bump s.cq.queueOverflows
      cursor := some (.points 0) } }

/-- Handing the CQ a record other than TRACE, formed for elapsed time `t` (R124). -/
def State.hand (s : State) (t : Time) (content : RecordContent) : State :=
  if s.cq.queue.length < Config.queueCapacity then
    { s with cq := { s.cq with queue := s.cq.queue ++ [s.record t content] } }
  else s.overflowQueue

/-- Handing the CQ a TRACE record: refused at or above the watermark, with the trace-gap flag set;
otherwise it takes the trace-gap flag, which is then cleared (R126). -/
def State.handTrace (s : State) (t : Time) (p : PointNo) (levels : TraceLevels) : State :=
  if s.system.watermark ≤ s.cq.queue.length then
    { s with cq := { s.cq with traceGap := true } }
  else
    { s with cq := { s.cq with
        queue := s.cq.queue ++ [s.record t (.trace p levels s.cq.traceGap)]
        traceGap := false } }

/-! ### Answers (R141) -/

/-- An ANSWER joins the tail of the answer list (R141). -/
def State.answer (s : State) (request : Byte) (status : AnswerStatus)
    (payload : List Byte := []) : State :=
  { s with dli := { s.dli with answers := s.dli.answers ++ [⟨request, status, payload⟩] } }

end Sys2Proof.Machine
end

