-- ==== Sys2Proof/Machine/Flags.lean ====
section
/-! DEFINITION. The flags an INDICATION header shows, each judged when the header is formed (R125,
R143). -/

namespace Sys2Proof.Machine

/-- QUEUE_HIGH for a depth: at or above the watermark (R125). -/
def State.queueHigh (s : State) (depth : Nat) : Bool := s.system.watermark ≤ depth

/-- Any module LOST: at least one used module's state is LOST (R85). -/
def State.anyModuleLost (s : State) : Bool :=
  (List.finRange 32).any fun m => s.useOf m ≠ .unused && (s.moduleRec m).state = .lost

/-- A channel is FAULTED. -/
def Channel.isFaulted (c : Channel) : Bool :=
  match c.condition with
  | .faulted _ => true
  | .normal _ => false

/-- Any channel FAULTED: at least one channel record is FAULTED (R102). -/
def State.anyChannelFaulted (s : State) : Bool :=
  s.channels.any fun e =>
    match e.2 with
    | none => false
    | some bank => bank.any fun c => c.2.isFaulted

/-- The key is sensed as presented. -/
def State.keyPresented (s : State) : Bool := s.ts.key = .presented

/-- The header of an INDICATION with `count` records (R143). -/
def State.header (s : State) (count : Nat) : Header :=
  { mode := s.ts.mode
    configured := s.configured
    commitPending := s.ts.commitPending
    keyPresented := s.keyPresented
    queueHigh := s.queueHigh s.cq.queue.length
    linkSilent := s.dli.linkSilent
    moduleLost := s.anyModuleLost
    channelFaulted := s.anyChannelFaulted
    deskTime := s.deskTime s.now
    count := count }

end Sys2Proof.Machine
end

