-- ==== Sys2Proof/Machine/Operands.lean ====
section
/-! DEFINITION. The encodings and layouts of Chapter 12: the CRC-16, the codes of the value sets, the
table entries as they are sent and as they are written, scan line frames, records, INDICATION and
ANSWER telegrams (R168 to R171). -/

namespace Sys2Proof.Machine

/-! ### CRC-16 (terms table) -/

/-- One bit of the CRC-16 with generator x^16 + x^12 + x^5 + 1, most significant bit first. -/
def crcBit (c : BitVec 16) : BitVec 16 := if c.msb then (c <<< 1) ^^^ 0x1021#16 else c <<< 1

/-- One byte of the CRC-16. -/
def crcByte (c : BitVec 16) (b : Byte) : BitVec 16 :=
  let c := c ^^^ (b.zeroExtend 16 <<< 8)
  crcBit (crcBit (crcBit (crcBit (crcBit (crcBit (crcBit (crcBit c)))))))

/-- The CRC-16 over a run of bytes, initial value all ones. -/
def crc16 (bytes : List Byte) : BitVec 16 := bytes.foldl crcByte 0xFFFF#16

/-- The two CRC bytes, most significant first. -/
def crcBytes (bytes : List Byte) : List Byte :=
  [(crc16 bytes >>> 8).truncate 8, (crc16 bytes).truncate 8]

/-! ### Numbers (R168) -/

/-- A number in one byte. -/
def u8 (n : Nat) : List Byte := [BitVec.ofNat 8 n]

/-- A number in two bytes, most significant first. -/
def u16 (n : Nat) : List Byte := [BitVec.ofNat 8 (n / 256), BitVec.ofNat 8 n]

/-- An elapsed or desk time in four bytes, most significant first. -/
def u32 (t : Time) : List Byte :=
  [(t >>> 24).truncate 8, (t >>> 16).truncate 8, (t >>> 8).truncate 8, t.truncate 8]

/-- A time in milliseconds below 65,536 where a layout gives every time 4 bytes (R168, R171). -/
def millis4 (ms : Nat) : List Byte := u32 (BitVec.ofNat 32 ms)

/-- A flag: clear 0, set 1. -/
def flag (b : Bool) : List Byte := if b then [1] else [0]

/-- Byte `i` of a run of bytes; 0 beyond its end. -/
def byteAt (bytes : List Byte) (i : Nat) : Byte := bytes.getD i 0

/-- The number in byte `i`. -/
def num8 (bytes : List Byte) (i : Nat) : Nat := (byteAt bytes i).toNat

/-- The number in bytes `i` and `i + 1`, most significant first. -/
def num16 (bytes : List Byte) (i : Nat) : Nat := num8 bytes i * 256 + num8 bytes (i + 1)

/-- The time in bytes `i` to `i + 3`, most significant first. -/
def time32 (bytes : List Byte) (i : Nat) : Time :=
  BitVec.ofNat 32 (num16 bytes i * 65536 + num16 bytes (i + 2))

/-- A flag byte: 0 or 1, and no other value. -/
def flagOf (b : Byte) : Option Bool :=
  match b.toNat with
  | 0 => some false
  | 1 => some true
  | _ => none

/-! ### Codes of the value sets (R168) -/

/-- The code of a state value. -/
def StateValue.code : StateValue → Nat
  | .off => 1
  | .on => 2
  | .down => 3
  | .up => 4
  | .faultOpen => 5
  | .faultBoth => 6
  | .dark => 7
  | .lit => 8
  | .flashing => 9
  | .irregular => 10

/-- The state value of a code; UNKNOWN (0), ANY (15) and the rest are none. -/
def StateValue.ofCode : Nat → Option StateValue
  | 1 => some .off
  | 2 => some .on
  | 3 => some .down
  | 4 => some .up
  | 5 => some .faultOpen
  | 6 => some .faultBoth
  | 7 => some .dark
  | 8 => some .lit
  | 9 => some .flashing
  | 10 => some .irregular
  | _ => none

/-- The code of a required state: ANY is 15. -/
def requiredCode : Option StateValue → Nat
  | none => 15
  | some v => v.code

/-- The required state of a code: ANY, or a value valid for some class. -/
def requiredOf : Nat → Option (Option StateValue)
  | 15 => some none
  | n => (StateValue.ofCode n).map some

/-- The code of a cause; 0 is absent. -/
def Cause.code : Cause → Nat
  | .module => 1
  | .wetting => 2
  | .init => 3

/-- The state code and the cause code of an evaluated or reported state. -/
def PointState.codes : PointState → Nat × Nat
  | .unknown c => (0, c.code)
  | .known v => (v.code, 0)

/-- The code and the cause code of a group: NO_ASPECT 0, 1 to 15, UNKNOWN 255 (R171). -/
def GroupCode.codes : GroupCode → Nat × Nat
  | .unknown c => (255, c.code)
  | .code n => (n, 0)

/-- The code of a module state. -/
def ModuleState.code : ModuleState → Nat
  | .unused => 0
  | .starting => 1
  | .active => 2
  | .suspect => 3
  | .lost => 4

/-- The code of a mode. -/
def Mode.code : Mode → Nat
  | .unconfigured => 0
  | .operate => 1
  | .maintenance => 2

/-- The code of a drive code. -/
def DriveCode.wire : DriveCode → Nat
  | .off => 0
  | .on => 1
  | .flash => 2

/-- The code of a table. -/
def TableId.code : TableId → Nat
  | .moduleMap => 0
  | .points => 1
  | .groups => 2
  | .patterns => 3
  | .commands => 4
  | .system => 5

/-- The table of a code. -/
def TableId.ofCode : Nat → Option TableId
  | 0 => some .moduleMap
  | 1 => some .points
  | 2 => some .groups
  | 3 => some .patterns
  | 4 => some .commands
  | 5 => some .system
  | _ => none

/-- The code of a command result, EXECUTED 1 to REJECTED_NO_SLOT 16. -/
def CommandResult.code : CommandResult → Nat
  | .executed => 1
  | .proved => 2
  | .notProved => 3
  | .unprovable => 4
  | .already => 5
  | .cancelled => 6
  | .cancelledLink => 7
  | .outputFault => 8
  | .moduleLost => 9
  | .rejectedNotConfigured => 10
  | .rejectedCommitPending => 11
  | .rejectedUndefined => 12
  | .rejectedModule => 13
  | .rejectedChannelFault => 14
  | .rejectedBusy => 15
  | .rejectedNoSlot => 16

/-- The code of an ANSWER status, ACCEPTED 1 to WITHDRAWN 11. -/
def AnswerStatus.code : AnswerStatus → Nat
  | .accepted => 1
  | .clamped => 2
  | .notPermitted => 3
  | .busy => 4
  | .outOfRange => 5
  | .invalidEntry => 6
  | .unknownKind => 7
  | .badLength => 8
  | .notActive => 9
  | .committed => 10
  | .withdrawn => 11

/-- The position of a use in its list. -/
def Use.code : Use → Nat
  | .unused => 0
  | .input => 1
  | .output => 2

/-- The use of a code. -/
def Use.ofCode : Nat → Option Use
  | 0 => some .unused
  | 1 => some .input
  | 2 => some .output
  | _ => none

/-- The position of a class in its list. -/
def PointClass.code : PointClass → Nat
  | .none => 0
  | .single => 1
  | .pair => 2
  | .flasher => 3

/-- The class of a code. -/
def PointClass.ofCode : Nat → Option PointClass
  | 0 => some .none
  | 1 => some .single
  | 2 => some .pair
  | 3 => some .flasher
  | _ => Option.none

/-- The position of a command mode in its list: PULSE 0, SET 1, CLEAR 2, FLASH 3. -/
def CommandMode.wire : CommandMode → Nat
  | .pulse => 0
  | .set => 1
  | .clear => 2
  | .flash => 3

/-- The command mode of a code. -/
def CommandMode.ofCode : Nat → Option CommandMode
  | 0 => some .pulse
  | 1 => some .set
  | 2 => some .clear
  | 3 => some .flash
  | _ => none

/-- The position of a sensed key level in its list (R148). -/
def keyCode : KeyLevel → Nat
  | .presented => 0
  | .withdrawn => 1

/-- The position of a slot phase in its list, FREE 0 (R104). -/
def phaseCode : Option Phase → Nat
  | none => 0
  | some .driving => 1
  | some .confirming => 2
  | some .proving => 3
  | some .finishing => 4

/-- The code byte of a desk telegram kind (R170). -/
def DeskKind.byte : DeskKind → Byte
  | .control => 0x01
  | .cancel => 0x02
  | .interrogate => 0x03
  | .timeSet => 0x04
  | .modeRequest => 0x05
  | .tableWrite => 0x06
  | .tableRead => 0x07
  | .tableCommit => 0x08
  | .substitute => 0x09
  | .release => 0x0A
  | .diagRead => 0x0B
  | .traceSelect => 0x0C
  | .counterClear => 0x0D
  | .restart => 0x0E

/-- The desk telegram kind of a code byte, if it is one of the fourteen (R170). -/
def DeskKind.ofByte (b : Byte) : Option DeskKind :=
  match b.toNat with
  | 0x01 => some .control
  | 0x02 => some .cancel
  | 0x03 => some .interrogate
  | 0x04 => some .timeSet
  | 0x05 => some .modeRequest
  | 0x06 => some .tableWrite
  | 0x07 => some .tableRead
  | 0x08 => some .tableCommit
  | 0x09 => some .substitute
  | 0x0A => some .release
  | 0x0B => some .diagRead
  | 0x0C => some .traceSelect
  | 0x0D => some .counterClear
  | 0x0E => some .restart
  | _ => none

/-! ### Clamping (R151) -/

/-- A value stored at the nearer limit of its range, with whether it was clamped (R151). -/
def clamp (lo hi v : Nat) : Nat × Bool := (min (max v lo) hi, v < lo || hi < v)

/-- A number clamped to 0 up to `n`, as an index (R151). -/
def clampFin (n v : Nat) : Fin (n + 1) × Bool := (⟨min v n, by omega⟩, n < v)

/-- The desk-silence time: 0 is off, 1 to 249 is stored as 0, 250 to 499 as 500, and above 30,000 as
30,000 (R151). -/
def clampSilence (v : Nat) : Nat × Bool :=
  if v = 0 then (0, false)
  else if v < 250 then (0, true)
  else if v < 500 then (500, true)
  else if 30000 < v then (30000, true)
  else (v, false)

/-- An aspect code: 0 is stored as 1, above 15 as 15 (R151). -/
def clampAspect (v : Nat) : Fin 16 × Bool := (⟨min (max v 1) 15, by omega⟩, v < 1 || 15 < v)

/-! ### Table entries as they are sent (R170) and written (R150, R151) -/

/-- The size of one entry of a table in bytes (R170). -/
def TableId.entrySize : TableId → Nat
  | .moduleMap => 3
  | .points => 30
  | .groups => 21
  | .patterns => 8
  | .commands => 15
  | .system => 18

/-- The number of entries of a table (R148). -/
def TableId.entries : TableId → Nat
  | .moduleMap => 32
  | .points => 1024
  | .groups => 128
  | .patterns => 512
  | .commands => 256
  | .system => 1

/-- A Module Map entry in its TABLE_WRITE form. -/
def ModuleEntry.bytes (e : ModuleEntry) : List Byte := u8 e.use.code ++ u16 e.address

/-- A written Module Map entry with whether a field was clamped; none when an enumerated field is
outside its list. -/
def ModuleEntry.parse (b : List Byte) : Option (ModuleEntry × Bool) := do
  let use ← Use.ofCode (num8 b 0)
  let address := clamp 1 62 (num16 b 1)
  return ({ use := use, address := address.1 }, address.2)

/-- A contact in its TABLE_WRITE form. -/
def Contact.bytes (c : Contact) : List Byte := u16 c.mod ++ u16 c.contact ++ flag c.invert

/-- A written contact with whether a field was clamped. -/
def Contact.parse (b : List Byte) : Option (Contact × Bool) := do
  let mod := clampFin 31 (num16 b 0)
  let contact := clampFin 63 (num16 b 2)
  let invert ← flagOf (byteAt b 4)
  return (⟨mod.1, contact.1, invert⟩, mod.2 || contact.2)

/-- A Point Table entry in its TABLE_WRITE form. -/
def PointEntry.bytes (e : PointEntry) : List Byte :=
  u8 e.cls.code ++ e.a.bytes ++ e.b.bytes ++ flag e.report ++ u16 e.pickFilter ++
    u16 e.dropFilter ++ u16 e.transitLimit ++ u16 e.faultFilter ++ u16 e.alarmLimit ++
    u16 e.flashFilter ++ u16 e.halfMin ++ u16 e.halfMax ++ u16 e.target

/-- A written Point Table entry with whether a field was clamped. -/
def PointEntry.parse (b : List Byte) : Option (PointEntry × Bool) := do
  let cls ← PointClass.ofCode (num8 b 0)
  let a ← Contact.parse (b.drop 1)
  let c ← Contact.parse (b.drop 6)
  let report ← flagOf (byteAt b 11)
  let pick := clamp 0 10000 (num16 b 12)
  let dropF := clamp 0 10000 (num16 b 14)
  let transit := clamp 0 10000 (num16 b 16)
  let faultF := clamp 0 10000 (num16 b 18)
  let alarm := clamp 0 10000 (num16 b 20)
  let flashF := clamp 0 1000 (num16 b 22)
  let halfMin := clamp 50 5000 (num16 b 24)
  let halfMax := clamp 50 10000 (num16 b 26)
  let target := clamp 2 32 (num16 b 28)
  return (
    { cls := cls, a := a.1, b := c.1, report := report, pickFilter := pick.1,
      dropFilter := dropF.1, transitLimit := transit.1, faultFilter := faultF.1,
      alarmLimit := alarm.1, flashFilter := flashF.1, halfMin := halfMin.1,
      halfMax := halfMax.1, target := target.1 },
    a.2 || c.2 || pick.2 || dropF.2 || transit.2 || faultF.2 || alarm.2 || flashF.2 ||
      halfMin.2 || halfMax.2 || target.2)

/-- A Group Table entry in its TABLE_WRITE form. -/
def GroupEntry.bytes (e : GroupEntry) : List Byte :=
  u16 e.memberCount ++ (e.members.toList.map fun p => u16 p.val).flatten ++
    u16 e.firstPattern ++ u16 e.patternCount ++ u16 e.settleTime ++ flag e.report

/-- A written Group Table entry with whether a field was clamped. -/
def GroupEntry.parse (b : List Byte) : Option (GroupEntry × Bool) := do
  let count := clampFin 6 (num16 b 0)
  let m1 := clampFin 1023 (num16 b 2)
  let m2 := clampFin 1023 (num16 b 4)
  let m3 := clampFin 1023 (num16 b 6)
  let m4 := clampFin 1023 (num16 b 8)
  let m5 := clampFin 1023 (num16 b 10)
  let m6 := clampFin 1023 (num16 b 12)
  let first := clampFin 511 (num16 b 14)
  let patterns := clamp 1 16 (num16 b 16)
  let settle := clamp 0 5000 (num16 b 18)
  let report ← flagOf (byteAt b 20)
  return (
    { memberCount := count.1, members := #v[m1.1, m2.1, m3.1, m4.1, m5.1, m6.1],
      firstPattern := first.1, patternCount := patterns.1, settleTime := settle.1,
      report := report },
    count.2 || m1.2 || m2.2 || m3.2 || m4.2 || m5.2 || m6.2 || first.2 || patterns.2 ||
      settle.2)

/-- A Pattern Table entry in its TABLE_WRITE form. -/
def PatternEntry.bytes (e : PatternEntry) : List Byte :=
  (e.required.toList.map fun r => u8 (requiredCode r)).flatten ++ u16 e.aspect

/-- A written Pattern Table entry with whether a field was clamped. -/
def PatternEntry.parse (b : List Byte) : Option (PatternEntry × Bool) := do
  let r1 ← requiredOf (num8 b 0)
  let r2 ← requiredOf (num8 b 1)
  let r3 ← requiredOf (num8 b 2)
  let r4 ← requiredOf (num8 b 3)
  let r5 ← requiredOf (num8 b 4)
  let r6 ← requiredOf (num8 b 5)
  let aspect := clampAspect (num16 b 6)
  return ({ required := #v[r1, r2, r3, r4, r5, r6], aspect := aspect.1 }, aspect.2)

/-- A Command Table entry in its TABLE_WRITE form; the point number of an absent proving point is sent
as 0 (log entry 17). -/
def CommandEntry.bytes (e : CommandEntry) : List Byte :=
  flag e.defined ++ u16 e.mod ++ u16 e.channel ++ u8 e.mode.wire ++ u16 e.pulseTime ++
    flag e.proving.isSome ++ u16 (match e.proving with | some p => p.val | none => 0) ++
    u8 e.expected.code ++ u16 e.provingTime ++ flag e.endOnProof

/-- A written Command Table entry with whether a field was clamped; the point number of an absent
proving point is ignored (log entry 17). -/
def CommandEntry.parse (b : List Byte) : Option (CommandEntry × Bool) := do
  let defined ← flagOf (byteAt b 0)
  let mod := clampFin 31 (num16 b 1)
  let channel := clampFin 31 (num16 b 3)
  let mode ← CommandMode.ofCode (num8 b 5)
  let pulse := clamp 50 5000 (num16 b 6)
  let present ← flagOf (byteAt b 8)
  let point := clampFin 1023 (num16 b 9)
  let expected ← StateValue.ofCode (num8 b 11)
  let proving := clamp 100 60000 (num16 b 12)
  let endOnProof ← flagOf (byteAt b 14)
  return (
    { defined := defined, mod := mod.1, channel := channel.1, mode := mode, pulseTime := pulse.1,
      proving := if present then some point.1 else none, expected := expected,
      provingTime := proving.1, endOnProof := endOnProof },
    mod.2 || channel.2 || pulse.2 || (present && point.2) || proving.2)

/-- The System Record in its TABLE_WRITE form. -/
def SystemRecord.bytes (e : SystemRecord) : List Byte :=
  u16 e.scanPeriod ++ u16 e.replyWindow ++ u16 e.retries ++ u16 e.lossThreshold ++
    u16 e.recoveryCount ++ u16 e.settleTime ++ u16 e.silenceTime ++ u16 e.idleInterval ++
    u16 e.watermark

/-- A written System Record with whether a field was clamped. -/
def SystemRecord.parse (b : List Byte) : Option (SystemRecord × Bool) :=
  let period := clamp 4 50 (num16 b 0)
  let window := clamp 100 2000 (num16 b 2)
  let retries := clamp 0 3 (num16 b 4)
  let threshold := clamp 1 15 (num16 b 6)
  let recovery := clamp 1 15 (num16 b 8)
  let settle := clamp 20 1000 (num16 b 10)
  let silence := clampSilence (num16 b 12)
  let idle := clamp 200 5000 (num16 b 14)
  let watermark := clamp 16 248 (num16 b 16)
  some (
    { scanPeriod := period.1, replyWindow := window.1, retries := retries.1,
      lossThreshold := threshold.1, recoveryCount := recovery.1, settleTime := settle.1,
      silenceTime := silence.1, idleInterval := idle.1, watermark := watermark.1 },
    period.2 || window.2 || retries.2 || threshold.2 || recovery.2 || settle.2 || silence.2 ||
      idle.2 || watermark.2)

/-! ### Scan line frames (R169) -/

/-- A frame: address, kind, data length, data and CRC. -/
def frame (address kind : Nat) (data : List Byte) : List Byte :=
  let head := u8 address ++ u8 kind ++ u8 data.length ++ data
  head ++ crcBytes head

/-- An INPUT POLL. -/
def inputPollFrame (address : Nat) : List Byte := frame address 0x11 []

/-- Four drive codes in one byte, the lowest channel in the two least significant bits. -/
def packCodes (c0 c1 c2 c3 : DriveCode) : Byte :=
  BitVec.ofNat 8 (c0.wire + 4 * c1.wire + 16 * c2.wire + 64 * c3.wire)

/-- A DRIVE POLL carrying a drive code for each channel. -/
def drivePollFrame (address : Nat) (code : ChannelNo → DriveCode) : List Byte :=
  frame address 0x12
    [packCodes (code 0) (code 1) (code 2) (code 3), packCodes (code 4) (code 5) (code 6) (code 7),
     packCodes (code 8) (code 9) (code 10) (code 11),
     packCodes (code 12) (code 13) (code 14) (code 15),
     packCodes (code 16) (code 17) (code 18) (code 19),
     packCodes (code 20) (code 21) (code 22) (code 23),
     packCodes (code 24) (code 25) (code 26) (code 27),
     packCodes (code 28) (code 29) (code 30) (code 31)]

/-- The frame kind of the reply expected from a module of a use (R68, R169). -/
def Use.replyKind : Use → Nat
  | .input => 0x21
  | .output => 0x22
  | .unused => 0

/-- The data length of the reply kind of a use (R169). -/
def Use.replyLength : Use → Nat
  | .input => 9
  | .output => 5
  | .unused => 0

/-- The data bytes of a reply frame. -/
def replyData (f : List Byte) : List Byte := (f.drop 3).take (num8 f 2)

/-- Bytes read as one number, the first byte least significant: bit i is bit i mod 8 of byte i / 8
(R169). -/
def levelsOf : List Byte → Nat
  | [] => 0
  | b :: rest => b.toNat + 256 * levelsOf rest

/-- The 64 raw contact levels of an INPUT REPLY's data (R169). -/
def imageLevels (data : List Byte) : BitVec 64 := BitVec.ofNat 64 (levelsOf (data.take 8))

/-- The 32 readback levels of a DRIVE REPLY's data (R169). -/
def readbackLevels (data : List Byte) : BitVec 32 := BitVec.ofNat 32 (levelsOf (data.take 4))

/-- The levels as bytes, in the layout of a reply (R169, R171). -/
def levelBytes {w : Nat} (v : BitVec w) : Nat → List Byte
  | 0 => []
  | k + 1 => v.truncate 8 :: levelBytes (v >>> 8) k

/-! ### Records, INDICATION and ANSWER (R171) -/

/-- The record kind of R171. -/
def RecordContent.kind : RecordContent → Nat
  | .point .. => 1
  | .group .. => 2
  | .commandResult .. => 3
  | .module .. => 4
  | .channel .. => 5
  | .trace .. => 6
  | .overflow => 7
  | .refreshEnd => 8

/-- Flag bits 1 to 3 of a record, as a number (R171). -/
def RecordContent.flags : RecordContent → Nat
  | .point _ _ substituted extra =>
    (if substituted then 2 else 0) +
      match extra with
      | .none => 0
      | .transfer _ _ => 4
      | .period _ _ => 8
  | .channel _ _ clear => if clear then 2 else 0
  | .trace _ levels gap => (if gap then 2 else 0) + (if levels.b.isSome then 4 else 0)
  | _ => 0

/-- The optional bytes of a POINT record (R171). -/
def PointExtra.bytes : PointExtra → List Byte
  | .none => [0, 0, 0]
  | .transfer time slow => u16 time ++ flag slow
  | .period p d => u16 p ++ u8 d

/-- The seven content bytes of a record (R171). DEDUCED: a group number, and the logical module and the
channel of a MODULE or CHANNEL record, take 1 byte each, beside which R171 writes no width; so does each raw
level of a TRACE record (log entry 33). -/
def RecordContent.bytes : RecordContent → List Byte
  | .point p reported _ extra =>
    u16 p ++ u8 reported.codes.1 ++ u8 reported.codes.2 ++ extra.bytes
  | .group g code => u8 g ++ u8 code.codes.1 ++ u8 code.codes.2 ++ [0, 0, 0, 0]
  | .commandResult c result => u8 c ++ u8 result.code ++ [0, 0, 0, 0, 0]
  | .module m state => u8 m ++ u8 state.code ++ [0, 0, 0, 0, 0]
  | .channel m ch _ => u8 m ++ u8 ch ++ [0, 0, 0, 0, 0]
  | .trace p levels _ => u16 p ++ flag levels.a ++ flag (levels.b.getD false) ++ [0, 0, 0]
  | .overflow => [0, 0, 0, 0, 0, 0, 0]
  | .refreshEnd => [0, 0, 0, 0, 0, 0, 0]

/-- The thirteen bytes of a record (R171). -/
def Record.bytes (r : Record) : List Byte :=
  u8 r.content.kind ++ u8 ((if r.refresh then 1 else 0) + r.content.flags) ++ u32 r.deskTime ++
    r.content.bytes

/-- The flags byte of a header (R171). -/
def Header.flags (h : Header) : Nat :=
  (if h.configured then 1 else 0) + (if h.commitPending then 2 else 0) +
    (if h.keyPresented then 4 else 0) + (if h.queueHigh then 8 else 0) +
    (if h.linkSilent then 16 else 0) + (if h.moduleLost then 32 else 0) +
    (if h.channelFaulted then 64 else 0)

/-- The seven bytes of a header (R171). -/
def Header.bytes (h : Header) : List Byte :=
  u8 h.mode.code ++ u8 h.flags ++ u32 h.deskTime ++ u8 h.count

/-- A telegram on the desk link: sync byte, body length, kind, body and CRC (R170). -/
def telegram (kind : Byte) (body : List Byte) : List Byte :=
  let inner := u16 body.length ++ [kind] ++ body
  0x7E :: (inner ++ crcBytes inner)

/-- The body of a telegram from the part (R171). -/
def OutTelegram.body : OutTelegram → List Byte
  | .answer a => [a.request] ++ u8 a.status.code ++ a.payload
  | .indication h records => h.bytes ++ (records.map Record.bytes).flatten

/-- The kind byte of a telegram from the part (R170). -/
def OutTelegram.kind : OutTelegram → Byte
  | .answer _ => 0x82
  | .indication _ _ => 0x81

/-- The bytes that leave the part for a telegram in transmission (R170, R171). -/
def OutTelegram.bytes (t : OutTelegram) : List Byte := telegram t.kind t.body

end Sys2Proof.Machine
end

