-- ==== Sys2Proof/Machine/Points.lean ====
section
/-! DEFINITION. Points: contacts and deliverability (Chapter 1), the candidate and the SINGLE and PAIR
algorithms (Chapter 2), and the FLASHER algorithm (Chapter 3). Everything here works on one point's
entry and record; `Machine/Pe.lean` hands on what changed. -/

namespace Sys2Proof.Machine

/-! ### Classes, contacts and deliverability -/

/-- A state value is valid for a class (R2). -/
def StateValue.validFor (v : StateValue) (cls : PointClass) : Bool :=
  match cls, v with
  | .single, .off | .single, .on => true
  | .pair, .down | .pair, .up | .pair, .faultOpen | .pair, .faultBoth => true
  | .flasher, .dark | .flasher, .lit | .flasher, .flashing | .flasher, .irregular => true
  | _, _ => false

/-- A point is defined when its class is not NONE (R1, note 1). -/
def PointEntry.isDefined (e : PointEntry) : Bool := e.cls ≠ .none

/-- The contacts of a point's class (R1). -/
def PointEntry.contacts (e : PointEntry) : List Contact :=
  match e.cls with
  | .none => []
  | .single | .flasher => [e.a]
  | .pair => [e.a, e.b]

/-- The point has a contact of its class on a logical module (R8, R9). -/
def PointEntry.usesModule (e : PointEntry) (m : ModuleNo) : Bool :=
  e.contacts.any fun c => c.mod = m

/-- A module state in which the module's contacts may be read: ACTIVE or SUSPECT (R5). -/
def ModuleState.heard : ModuleState → Bool
  | .active | .suspect => true
  | .unused | .starting | .lost => false

/-- A contact is deliverable (R5). -/
def State.contactDeliverable (s : State) (c : Contact) : Bool :=
  (s.moduleRec c.mod).state.heard && !(s.moduleRec c.mod).wetting

/-- A point is deliverable when every contact of its class is (R5). -/
def State.pointDeliverable (s : State) (e : PointEntry) : Bool :=
  e.contacts.all s.contactDeliverable

/-- The loss cause of a point that is not deliverable: MODULE takes precedence over WETTING (R5). -/
def State.lossCause (s : State) (e : PointEntry) : Cause :=
  if e.contacts.any fun c => !(s.moduleRec c.mod).state.heard then .module else .wetting

/-! ### The reported state -/

/-- The reported state: the substitute value while present, else the evaluated state (R13). -/
def PointRecord.reported (r : PointRecord) : PointState :=
  match r.substitute with
  | some v => .known v
  | none => r.evaluated

/-- The substituted flag (R13). -/
def PointRecord.substituted (r : PointRecord) : Bool := r.substitute.isSome

/-- The reported view (R14). -/
def PointRecord.view (r : PointRecord) : PointState × Bool := (r.reported, r.substituted)

/-- The record with the working fields that loss clearing clears absent (R4). -/
def PointRecord.cleared (r : PointRecord) : PointRecord :=
  { r with
    candidate := none
    openSince := none
    pendingTransfer := none
    filteredLevel := none
    levelCandidate := none
    lastEdge := none
    lastOnHalf := none
    lastOffHalf := none
    integration := 0
    stale := false }

/-- Loss clearing with a loss cause (R6, R4). -/
def PointRecord.loseTo (r : PointRecord) (cause : Cause) : PointRecord :=
  { r.cleared with evaluated := .unknown cause }

/-- A record found not deliverable while it already has the loss cause: its fields are left as they are
(R6), and the model marks what they hold as stemming from a period of deliverability that is over (log
entry 27). -/
def PointRecord.lostAgain (r : PointRecord) : PointRecord :=
  { r with stale := decide ({ r with stale := false } ≠ r.cleared) }

/-- The record from which a sample's evaluation starts: without the working fields of an earlier period
of deliverability (R7, R21, R36, R51; log entry 27). -/
def PointRecord.atSample (r : PointRecord) : PointRecord := if r.stale then r.cleared else r

/-! ### Contact levels (R3) -/

/-- The raw level of a contact at the arrival of an image: from the arriving image when the contact is
on its module, otherwise from the other module's latest accepted image (R3). It is absent only where
a module has no latest image, which R67 and R86 leave to modules that are not ACTIVE or SUSPECT. -/
def State.rawLevel (s : State) (arr : BankImage) (c : Contact) : Option Bool :=
  if c.mod = arr.mod then some (arr.levels.getLsbD c.contact)
  else (s.moduleRec c.mod).image.map fun i => i.levels.getLsbD c.contact

/-- The contact level: the raw level, opposite when the invert flag is set (R3). -/
def Contact.level (c : Contact) (raw : Bool) : Bool := raw != c.invert

/-! ### The candidate (R20, R22) -/

/-- A candidate has reached its filter at `t` (R20). -/
def ripe (start t : Time) (filter : Nat) : Bool := filter ≤ interval start t

/-- The candidate after a sample with a target (R22). -/
def nextCandidate (evaluated : PointState) (before : Option Candidate) (target : StateValue)
    (t : Time) : Option Candidate :=
  if evaluated = .known target then none
  else
    match before with
    | some c => if c.target = target then some c else some ⟨target, t⟩
    | none => some ⟨target, t⟩

/-! ### SINGLE points (R25) -/

/-- The target and filter of a SINGLE sample (R25). -/
def PointEntry.singleTarget (e : PointEntry) (level : Bool) : StateValue × Nat :=
  if level then (.on, e.pickFilter) else (.off, e.dropFilter)

/-- The candidate after a SINGLE sample, before the acceptance test (R22, R25). -/
def PointRecord.singleUpdate (r : PointRecord) (target : StateValue) (t : Time) : PointRecord :=
  { r with candidate := nextCandidate r.evaluated r.candidate target t }

/-- One evaluation of a SINGLE point (R23, R25). -/
def PointEntry.evalSingle (e : PointEntry) (r : PointRecord) (level : Bool) (t : Time) :
    PointRecord :=
  let (target, filter) := e.singleTarget level
  let u := r.singleUpdate target t
  match u.candidate with
  | none => u
  | some c =>
    if ripe c.start t filter then { u with evaluated := .known target, candidate := none } else u

/-! ### PAIR points (R26 to R33) -/

/-- The target and filter of a PAIR combination (front, back) (R26). -/
def PointEntry.pairTarget (e : PointEntry) (front back : Bool) : StateValue × Nat :=
  match front, back with
  | true, false => (.up, e.pickFilter)
  | false, true => (.down, e.dropFilter)
  | true, true => (.faultBoth, e.faultFilter)
  | false, false => (.faultOpen, e.transitLimit)

/-- Open-since set by a new candidate: at a new FAULT_OPEN candidate from UP or DOWN (R29). -/
def newOpenSince (evaluated : PointState) (target : StateValue) (t : Time) : Option Time :=
  if target = .faultOpen ∧ (evaluated = .known .up ∨ evaluated = .known .down) then some t
  else none

/-- The pending transfer formed by a new candidate of the opposite state (R30). -/
def newPending (evaluated : PointState) (target : StateValue) (openSince : Option Time) (t : Time) :
    Option Nat :=
  if (evaluated = .known .up ∧ target = .down) ∨ (evaluated = .known .down ∧ target = .up) then
    match openSince with
    | some o => some (min (interval o t) Config.measureLimit)
    | none => some 0
  else none

/-- The candidate and its transfer bookkeeping after a PAIR sample: dropped with both, kept with both,
or new with its own (R22, R26 step 2, R27, R29 to R31). -/
def PointRecord.pairUpdate (r : PointRecord) (target : StateValue) (t : Time) : PointRecord :=
  if r.evaluated = .known target then
    { r with candidate := none, openSince := none, pendingTransfer := none }
  else if r.candidate.map Candidate.target = some target then r
  else
    { r with
      candidate := some ⟨target, t⟩
      openSince := newOpenSince r.evaluated target t
      pendingTransfer := newPending r.evaluated target r.openSince t }

/-- Acceptance of a PAIR candidate: the transfer bookkeeping completes, and open-since and the pending
transfer are discarded (R23, R32, R33). -/
def PointEntry.pairAccept (e : PointEntry) (r : PointRecord) (target : StateValue) : PointRecord :=
  let r := { r with evaluated := .known target, candidate := none, openSince := none }
  match r.pendingTransfer with
  | none => r
  | some x =>
    { r with
      lastTransfer := some x
      slowTransfer := e.alarmLimit ≠ 0 && e.alarmLimit < x
      pendingTransfer := none }

/-- One evaluation of a PAIR point: its new record, and the transfer time and slow flag that an
acceptance stored (R26, R32). -/
def PointEntry.evalPair (e : PointEntry) (r : PointRecord) (front back : Bool) (t : Time) :
    PointRecord × Option (Nat × Bool) :=
  let (target, filter) := e.pairTarget front back
  let u := r.pairUpdate target t
  match u.candidate with
  | none => (u, none)
  | some c =>
    if ripe c.start t filter then
      let a := e.pairAccept u target
      (a, u.pendingTransfer.map fun x => (x, a.slowTransfer))
    else (u, none)

/-! ### FLASHER points (R37 to R45) -/

/-- The level candidate after a sample (R38). -/
def nextLevelCandidate (filtered : Option Bool) (before : Option LevelCandidate) (level : Bool)
    (t : Time) : Option LevelCandidate :=
  if filtered = some level then none
  else
    match before with
    | some c => if c.level = level then some c else some ⟨level, t⟩
    | none => some ⟨level, t⟩

/-- Filter update, step 1 of R37: the new record, and whether an edge was accepted (R38). -/
def PointEntry.flashFilterStep (e : PointEntry) (r : PointRecord) (level : Bool) (t : Time) :
    PointRecord × Bool :=
  match nextLevelCandidate r.filteredLevel r.levelCandidate level t with
  | none => ({ r with levelCandidate := none }, false)
  | some c =>
    if ripe c.start t e.flashFilter then
      ({ r with filteredLevel := some level, levelCandidate := none }, true)
    else ({ r with levelCandidate := some c }, false)

/-- The steady state of a level: LIT for 1, DARK for 0 (R41, R43). -/
def steady (level : Bool) : StateValue := if level then .lit else .dark

/-- Quiet check, step 2 of R37 (R41). -/
def PointEntry.quietCheck (e : PointEntry) (r : PointRecord) (t : Time) : PointRecord :=
  match r.lastEdge, r.filteredLevel with
  | some edge, some level =>
    if e.halfMax < interval edge t then
      { r with evaluated := .known (steady level), integration := 0, lastEdge := none }
    else r
  | _, _ => r

/-- A half is stored as the half of the level just left (R42). -/
def PointRecord.storeHalf (r : PointRecord) (left : Bool) (h : Nat) : PointRecord :=
  if left then { r with lastOnHalf := some h } else { r with lastOffHalf := some h }

/-- Half classification, step 3 of R37: a half `h` of the level just left (R42 to R45). -/
def PointEntry.classifyHalf (e : PointEntry) (r : PointRecord) (left : Bool) (h : Nat) :
    PointRecord :=
  let r := r.storeHalf left h
  if e.halfMax < h then { r with evaluated := .known (steady left), integration := 0 }
  else if h < e.halfMin then
    { r with
      evaluated := if r.evaluated = .known .flashing then .known .irregular else r.evaluated
      integration := 0 }
  else
    let count := min (r.integration + 1) e.target
    { r with
      evaluated := if count = e.target then .known .flashing else r.evaluated
      integration := count }

/-- The half measured at an edge of time `t` after an edge at `s` (R42). -/
def measuredHalf (s t : Time) : Nat := min (interval s t) Config.measureLimit

/-- One evaluation of a FLASHER point: the four steps of R37. -/
def PointEntry.evalFlasher (e : PointEntry) (r : PointRecord) (level : Bool) (t : Time) :
    PointRecord :=
  let (u, edge) := e.flashFilterStep r level t
  if edge then
    let v :=
      match r.lastEdge, r.filteredLevel with
      | some s, some left => e.classifyHalf u left (measuredHalf s t)
      | _, _ => u
    { v with lastEdge := some t }
  else e.quietCheck u t

/-! ### Period and duty (R47) and the optional fields of a record (R14) -/

/-- The period P of two halves (R47). -/
def periodOf (onHalf offHalf : Nat) : Nat := min (onHalf + offHalf) Config.measureLimit

/-- The duty of two halves: a whole percentage rounded down and limited to 100. R47 leaves it open
where P is 0: there it is a free value within the same limit (log entry 13). -/
def dutyOf (onHalf offHalf : Nat) : Nat :=
  if periodOf onHalf offHalf = 0 then min Config.dutyAtZeroPeriod 100
  else min (100 * onHalf / periodOf onHalf offHalf) 100

/-- Period and duty in a POINT record: when the reported state is FLASHING, the point is not
substituted and both halves exist (R14). -/
def PointRecord.periodExtra (r : PointRecord) : PointExtra :=
  if r.substitute = none ∧ r.evaluated = .known .flashing then
    match r.lastOnHalf, r.lastOffHalf with
    | some x, some y => .period (periodOf x y) (dutyOf x y)
    | _, _ => .none
  else .none

/-! ### One evaluation at a sample (R9 step 2) -/

/-- The outcome of one evaluation that formed a sample: the new record, the optional fields its POINT
record would carry, and the raw levels of the sample for the trace (R14, R32, R46, R163). -/
structure Evaluation where
  record : PointRecord
  extra : PointExtra
  raw : TraceLevels
  deriving DecidableEq, Repr

/-- A SINGLE or PAIR point may accept a candidate at this arrival: nothing is accepted while the arriving
image's module is SUSPECT, at an image that waited in a bank while the module went SUSPECT (R35). The sample
is otherwise evaluated as R9 says, and the candidate it leaves is judged at the first sample after the
module's return (R35, R21). DESIGN CHOICE: how R9 and R35 meet at such an image (log entry 29). -/
def State.mayAccept (s : State) (arr : BankImage) : Bool := (s.moduleRec arr.mod).state ≠ .suspect

/-- The algorithm of the point's class at the sample that an arriving image gives; `none` where no
sample is formed (R9). Without the acceptance test for a SINGLE or PAIR point while the module is SUSPECT
(R35, log entry 29). -/
def State.evaluate (s : State) (arr : BankImage) (e : PointEntry) (before : PointRecord) :
    Option Evaluation :=
  let r := before.atSample
  match e.cls with
  | .none => none
  | .single =>
    match s.rawLevel arr e.a with
    | none => none
    | some a =>
      let level := e.a.level a
      let r' :=
        if s.mayAccept arr then e.evalSingle r level arr.time
        else r.singleUpdate (e.singleTarget level).1 arr.time
      some ⟨r', .none, ⟨a, none⟩⟩
  | .flasher =>
    match s.rawLevel arr e.a with
    | none => none
    | some a =>
      let r' := e.evalFlasher r (e.a.level a) arr.time
      some ⟨r', r'.periodExtra, ⟨a, none⟩⟩
  | .pair =>
    match s.rawLevel arr e.a, s.rawLevel arr e.b with
    | some a, some b =>
      let front := e.a.level a
      let back := e.b.level b
      let (r', stored) :=
        if s.mayAccept arr then e.evalPair r front back arr.time
        else (r.pairUpdate (e.pairTarget front back).1 arr.time, none)
      let extra : PointExtra :=
        match stored with
        | some (x, slow) => .transfer x slow
        | none => .none
      some ⟨r', extra, ⟨a, some b⟩⟩
    | _, _ => none

end Sys2Proof.Machine
end

