-- ==== Sys2Proof/Machine/Age.lean ====
section
/-! DEFINITION. Aspect Group Evaluator: which groups a hand-over evaluates, and the evaluation of one
group (Chapter 4). -/

namespace Sys2Proof.Machine

/-- A group is defined when its member count is 1 to 6 (R54, note 2). -/
def GroupEntry.isDefined (e : GroupEntry) : Bool := e.memberCount ≠ 0

/-- The pattern range of a group: its Pattern Table indexes in ascending order (R54, note 3). -/
def GroupEntry.patternRange (e : GroupEntry) : List PatternNo :=
  (List.range e.patternCount).filterMap fun k =>
    if h : e.firstPattern.val + k < 512 then some ⟨e.firstPattern.val + k, h⟩ else none

/-- The reported states of a group's members in position order (R58, R59). -/
def State.memberStates (s : State) (e : GroupEntry) : List PointState :=
  e.memberList.map fun p => (s.pointRec p).reported

/-- The cause of the first UNKNOWN member in position order (R59). -/
def firstUnknown (states : List PointState) : Option Cause :=
  states.findSome? fun
    | .unknown c => some c
    | .known _ => none

/-- A required state admits a member's state: ANY, or equal (R60). -/
def admits (required : Option StateValue) (state : PointState) : Bool :=
  match required with
  | none => true
  | some v => state = .known v

/-- A pattern matches the members' states at positions 1 up to the member count (R60). -/
def PatternEntry.matchesStates (e : PatternEntry) (states : List PointState) : Bool :=
  (e.required.toList.zip states).all fun (required, state) => admits required state

/-- The aspect code of the first matching pattern of a group's range (R60). -/
def Tables.firstMatch (t : Tables) (e : GroupEntry) (states : List PointState) :
    Option (Fin 16) :=
  e.patternRange.findSome? fun i =>
    let pattern := t.patternEntry i
    if pattern.matchesStates states then some pattern.aspect else none

/-- The settle rule at an arrival that finds no match (R61). -/
def GroupRecord.settleAt (r : GroupRecord) (t : Time) (settle : Nat) : GroupRecord :=
  let start := r.noMatchStart.getD t
  { code := if settle ≤ interval start t then .code 0 else r.code
    noMatchStart := some start }

/-- The new record of a group from its members' states (R59 to R62). -/
def Tables.judgeGroup (t : Tables) (e : GroupEntry) (r : GroupRecord) (states : List PointState)
    (arrival : Bool) (at_ : Time) : GroupRecord :=
  match firstUnknown states with
  | some c => { code := .unknown c, noMatchStart := none }
  | none =>
    match t.firstMatch e states with
    | some aspect => { code := .code aspect, noMatchStart := none }
    | none => if arrival then r.settleAt at_ e.settleTime else r

/-- Evaluation of one group at time `t` of a hand-over, with its GROUP record when the view changed
and the report flag is set (R59 to R63). -/
def State.evaluateGroup (arrival : Bool) (t : Time) (s : State) (g : GroupNo) : State :=
  let e := s.ts.active.groupEntry g
  let r := s.groupRec g
  let r' := s.ts.active.judgeGroup e r (s.memberStates e) arrival t
  let s' := s.setGroupRec g r'
  if r'.code ≠ r.code ∧ e.report then s'.hand t (.group g r'.code) else s'

/-- The defined groups that satisfy a condition on their entry, in ascending number (R57). -/
def State.groupsWhere (s : State) (p : GroupEntry → Bool) : List GroupNo :=
  s.ts.active.groups.keysWhere .empty fun e => e.isDefined && p e

/-! ### The AGE's work (R58) -/

/-- A group's no-match start made absent (R57). -/
def State.clearNoMatch (s : State) (g : GroupNo) : State :=
  s.setGroupRec g { s.groupRec g with noMatchStart := none }

/-- What a hand-over comes to: its groups evaluated in their order, and its no-match starts made absent
(R57). -/
def State.workHandOver (s : State) (h : HandOver) : State :=
  h.clears.foldl State.clearNoMatch (h.groups.foldl (State.evaluateGroup h.arrival h.time) s)

/-- The state with the AGE's unfinished hand-overs replaced. -/
def State.setHandOvers (s : State) (hs : List HandOver) : State :=
  { s with age := { s.age with handOvers := hs } }

/-- The AGE finishes every hand-over, oldest first (R58). -/
def State.ageFinish (s : State) : State :=
  (s.age.handOvers.foldl State.workHandOver s).setHandOvers []

/-- One turn of the AGE: the next group of the oldest hand-over, or, when none is left, its end (R58). -/
def State.ageTurn (s : State) : State :=
  match s.age.handOvers with
  | [] => s
  | h :: rest =>
    match h.groups with
    | g :: groups =>
      (s.evaluateGroup h.arrival h.time g).setHandOvers ({ h with groups := groups } :: rest)
    | [] => (h.clears.foldl State.clearNoMatch s).setHandOvers rest

/-- A number of turns of the AGE. -/
def State.ageTurns (s : State) : Nat → State
  | 0 => s
  | n + 1 => s.ageTurn.ageTurns n

/-- A hand-over to the AGE (R58). The AGE finishes it, and those before it, within the event that hands it
over, as 95_what_each_step_holds.md lists it, unless the pace has it take fewer turns: a later event may
then come between (log entry 11). -/
def State.handOver (s : State) (h : HandOver) : State :=
  let s := s.setHandOvers (s.age.handOvers ++ [h])
  match s.age.pace with
  | [] => s.ageFinish
  | n :: pace => { s with age := { s.age with pace := pace } }.ageTurns n

/-- The hand-over of an arrival is not finished: the PE does not begin the next arrival (R58). -/
def State.arrivalUnfinished (s : State) : Bool := s.age.handOvers.any HandOver.arrival

/-! ### Hand-overs (R57) -/

/-- An arrival hand-over: every defined group with a member that has a contact of its class on the
arriving module (R57). -/
def State.ageArrival (s : State) (m : ModuleNo) (t : Time) : State :=
  s.handOver
    { arrival := true
      time := t
      groups := s.groupsWhere fun e =>
        e.memberList.any fun p => (s.ts.active.pointEntry p).usesModule m
      clears := [] }

/-- The groups with a member in a handed set of points (R57). -/
def GroupEntry.hasMemberIn (e : GroupEntry) (set : List PointNo) : Bool :=
  e.memberList.any fun p => set.contains p

/-- A change hand-over from SUBSTITUTE or RELEASE: every defined group with a member in the handed set
(R57). -/
def State.ageChange (s : State) (set : List PointNo) (t : Time) : State :=
  s.handOver
    { arrival := false
      time := t
      groups := s.groupsWhere fun e => e.hasMemberIn set
      clears := [] }

/-- The change hand-over of a module notice: it also makes absent the no-match start of every defined
group that it does not evaluate and none of whose members is deliverable once the notice has been
handled (R57). -/
def State.ageNotice (s : State) (set : List PointNo) (t : Time) : State :=
  s.handOver
    { arrival := false
      time := t
      groups := s.groupsWhere fun e => e.hasMemberIn set
      clears := s.groupsWhere fun e =>
        !e.hasMemberIn set &&
          !(e.memberList.any fun p => s.pointDeliverable (s.ts.active.pointEntry p)) }

end Sys2Proof.Machine
end

