-- ==== Sys2Proof/Machine/Odu.lean ====
section
/-! DEFINITION. Output Drive Unit: setting drive codes, readback supervision, fault clearing and what
a lost module does to its channels (Chapter 6). -/

namespace Sys2Proof.Machine

/-- Set code (R92): a differing code is taken and ends a running mismatch; an equal one changes
nothing; on a FAULTED channel the code stays OFF. -/
def State.setCode (s : State) (m : ModuleNo) (ch : ChannelNo) (code : DriveCode) : State :=
  match s.channel m ch with
  | none => s
  | some c =>
    match c.condition with
    | .faulted _ => s
    | .normal _ =>
      if c.drive = code then s
      else s.setChannel m ch { c with drive := code, condition := .normal none }

/-- A channel after drop flashing: drive code FLASH becomes OFF (R92). -/
def Channel.dropFlash (c : Channel) : Channel :=
  if c.drive = .flash then { c with drive := .off } else c

/-- Drop flashing (R92): every channel record whose drive code is FLASH takes OFF. -/
def State.dropFlashing (s : State) : State :=
  let drop (bank : Table 32 Channel) := Table.update .init (fun _ c => c.dropFlash) bank
  { s with channels := Table.update none (fun _ bank => bank.map drop) s.channels }

/-- The start of an unbroken run: kept when the run has begun, `t` when it begins now, absent when
the reading breaks it (R95, R97). -/
def runStart (running : Bool) (start : Option Time) (t : Time) : Option Time :=
  if running then some (start.getD t) else none

/-- A run that has lasted the settle time at `t` (R96, R97). -/
def settled (start : Option Time) (t : Time) (settle : Nat) : Bool :=
  match start with
  | none => false
  | some s => settle ≤ interval s t

/-- The readback a normal channel expects: 1 for ON, 0 for OFF, none for FLASH (R95). -/
def DriveCode.expected : DriveCode → Option Bool
  | .on => some true
  | .off => some false
  | .flash => none

/-- What one supervised readback does to a channel (R95 to R97). -/
inductive Verdict where
  /-- The condition stays; the starts may move. -/
  | unchanged (c : Channel)
  /-- The channel becomes FAULTED (R96). -/
  | fault (c : Channel)
  /-- The channel returns to normal (R97). -/
  | clear (c : Channel)
  deriving DecidableEq, Repr

/-- Supervision of one channel at a readback of time `t` from a module that is ACTIVE (R94 to
R97). -/
def Channel.supervise (c : Channel) (level : Bool) (t : Time) (settle : Nat) : Verdict :=
  match c.condition with
  | .normal mismatch =>
    match c.drive.expected with
    | none => .unchanged c
    | some e =>
      let start := runStart (level != e) mismatch t
      if settled start t settle then
        .fault { c with drive := .off, condition := .faulted none }
      else .unchanged { c with condition := .normal start }
  | .faulted agreement =>
    let start := runStart (!level) agreement t
    if settled start t settle then .clear { c with condition := .normal none }
    else .unchanged { c with condition := .faulted start }

/-- A channel at its module's change to LOST: code OFF, both starts absent, condition kept (R98). -/
def Channel.lose (c : Channel) : Channel :=
  { c with
    drive := .off
    condition := match c.condition with
      | .normal _ => .normal none
      | .faulted _ => .faulted none }

/-- The ODU at a module's change to LOST (R98). -/
def State.oduModuleLost (s : State) (m : ModuleNo) : State :=
  match s.channelBank m with
  | none => s
  | some bank =>
    let lost := Table.update .init (fun _ c => c.lose) bank
    { s with channels := s.channels.set none m (some lost) }

/-- The code a DRIVE POLL carries for a channel: the drive code of an ACTIVE or SUSPECT module, OFF
for a STARTING or LOST one (R93). -/
def State.polledCode (s : State) (m : ModuleNo) (ch : ChannelNo) : DriveCode :=
  match (s.moduleRec m).state with
  | .active | .suspect => ((s.channel m ch).getD .init).drive
  | .unused | .starting | .lost => .off

/-- Sending a DRIVE POLL: the last sent code of each channel becomes the code placed in the poll
(R93). -/
def State.recordSentCodes (s : State) (m : ModuleNo) : State :=
  match s.channelBank m with
  | none => s
  | some bank =>
    let sent := Table.tabulate .init fun ch =>
      { bank.get .init ch with lastSent := some (s.polledCode m ch) }
    { s with channels := s.channels.set none m (some sent) }

end Sys2Proof.Machine
end

