-- ==== Sys2Proof/Machine/Csu.lean ====
section
/-! DEFINITION. Command Supervisor: slots, results and the events that end a slot (Chapter 7). -/

namespace Sys2Proof.Machine

/-- A phase in which the slot has not yet issued its result (R104). -/
def Phase.isOpen : Phase → Bool
  | .driving | .confirming | .proving => true
  | .finishing => false

/-- A result is issued: a COMMAND_RESULT record is handed to the CQ with the desk time of `t`
(R107). -/
def State.issue (s : State) (c : ControlNo) (r : CommandResult) (t : Time) : State :=
  s.hand t (.commandResult c r)

/-- A slot frees: every field returns to its free value (R116). -/
def State.freeSlot (s : State) (k : SlotNo) : State := s.setSlot k none

/-- The result of a slot that an event ends: issued in an open phase, none in FINISHING (R112 to
R115). -/
def State.issueIfOpen (s : State) (sl : Slot) (r : CommandResult) (t : Time) : State :=
  if sl.phase.isOpen then s.issue sl.control r t else s

/-- All slots, in ascending slot number. -/
def allSlots : List SlotNo := List.finRange 16

/-- The occupied slot that owns an output channel, the lowest if there were several (R104). -/
def State.ownerOf (s : State) (m : ModuleNo) (ch : ChannelNo) : Option SlotNo :=
  allSlots.find? fun k =>
    match s.slot k with
    | none => false
    | some sl => sl.mod = m && sl.channel = ch

/-- The occupied slot that holds a control (R114). -/
def State.slotOfControl (s : State) (c : ControlNo) : Option SlotNo :=
  allSlots.find? fun k =>
    match s.slot k with
    | none => false
    | some sl => sl.control = c

/-- The lowest-numbered FREE slot (R106). -/
def State.lowestFree (s : State) : Option SlotNo := allSlots.find? fun k => (s.slot k).isNone

/-- At least one slot is occupied (R154). -/
def State.anySlotOccupied (s : State) : Bool := allSlots.any fun k => (s.slot k).isSome

/-! ### Acceptance (R105, R106) -/

/-- The output channel is FAULTED (R105, check 5). -/
def State.channelFaulted (s : State) (m : ModuleNo) (ch : ChannelNo) : Bool :=
  match s.channel m ch with
  | some { condition := .faulted _, .. } => true
  | _ => false

/-- The proving point of an entry already shows the expected state (R105, check 8). -/
def State.alreadyShown (s : State) (e : CommandEntry) : Bool :=
  match e.proving with
  | none => false
  | some p => (s.pointRec p).evaluated = .known e.expected

/-- The checks of R105 in order: the result when one fails, the slot to occupy when all pass. -/
def State.judgeControl (s : State) (c : ControlNo) : Except CommandResult SlotNo :=
  let e := s.ts.active.commandEntry c
  if !s.configured then .error .rejectedNotConfigured
  else if s.ts.commitPending then .error .rejectedCommitPending
  else if !e.defined then .error .rejectedUndefined
  else if (s.moduleRec e.mod).state ≠ .active then .error .rejectedModule
  else if s.channelFaulted e.mod e.channel then .error .rejectedChannelFault
  else if (s.ownerOf e.mod e.channel).isSome then .error .rejectedBusy
  else
    match s.lowestFree with
    | none => .error .rejectedNoSlot
    | some k => if s.alreadyShown e then .error .already else .ok k

/-- The code a command requests at its acceptance (R106). -/
def CommandMode.code : CommandMode → DriveCode
  | .pulse | .set => .on
  | .clear => .off
  | .flash => .flash

/-- The slot an accepted control occupies at its dispatch time `t` (R106). -/
def CommandEntry.slotAt (e : CommandEntry) (c : ControlNo) (t : Time) : Slot :=
  { phase :=
      match e.proving with
      | some _ => .proving
      | none => if e.mode = .pulse then .driving else .confirming
    control := c
    mod := e.mod
    channel := e.channel
    mode := e.mode
    proving := e.proving.map fun p => (p, e.expected)
    endOnProof := e.endOnProof
    acceptedAt := t
    pulseEnd := if e.mode = .pulse then some (after t e.pulseTime) else none
    deadline := e.proving.map fun _ => after t e.provingTime
    result := none }

/-- CONTROL at the CSU: a rejection or ALREADY is issued at once; an accepted control occupies a slot
and requests its code (R105, R106). -/
def State.takeControl (s : State) (c : ControlNo) : State :=
  match s.judgeControl c with
  | .error r => s.issue c r s.now
  | .ok k =>
    let e := s.ts.active.commandEntry c
    (s.setSlot k (some (e.slotAt c s.now))).setCode e.mod e.channel e.mode.code

/-! ### Slot events (R108 to R115) -/

/-- A slot's pulse end at its due time `due` (R108). DESIGN CHOICE: the table of R117 speaks, for a
DRIVING slot whose pulse end is taken before a fault, of a fault that still gives its CHANNEL record; by
R92 and R95 the OFF request made here makes the mismatch start absent, so the readback of the same moment
makes no fault. The model follows R92 and R95 (log entry 32). -/
def State.endPulse (s : State) (k : SlotNo) (sl : Slot) (due : Time) : State :=
  let s := s.setCode sl.mod sl.channel .off
  match sl.phase with
  | .driving => (s.issue sl.control .executed due).freeSlot k
  | .finishing => s.freeSlot k
  | .proving | .confirming => s.setSlot k (some { sl with pulseEnd := none })

/-- Proof of one PROVING slot at elapsed time `e` (R109). -/
def State.proveSlot (s : State) (k : SlotNo) (sl : Slot) (e : Time) : State :=
  let s := s.issue sl.control .proved e
  match sl.pulseEnd with
  | none => s.freeSlot k
  | some _ =>
    if sl.endOnProof then (s.setCode sl.mod sl.channel .off).freeSlot k
    else s.setSlot k
      (some { sl with phase := .finishing, deadline := none, result := some .proved })

/-- The notice of a point's new evaluated state at one slot (R109). -/
def State.noticeSlot (p : PointNo) (new : PointState) (s : State) (k : SlotNo) : State :=
  match s.slot k with
  | none => s
  | some sl =>
    match sl.proving with
    | none => s
    | some (q, expected) =>
      if sl.phase = .proving ∧ q = p ∧ new = .known expected then s.proveSlot k sl s.now else s

/-- The CSU takes the notice of a change of evaluated state (R109). -/
def State.csuNotice (s : State) (p : PointNo) (new : PointState) : State :=
  allSlots.foldl (State.noticeSlot p new) s

/-- A PROVING slot's deadline at its due time `due` (R110). -/
def State.endProving (s : State) (k : SlotNo) (sl : Slot) (due : Time) : State :=
  let unproved : CommandResult :=
    match sl.proving with
    | some (p, _) =>
      match (s.pointRec p).evaluated with
      | .unknown _ => .unprovable
      | .known _ => .notProved
    | none => .notProved
  let s := s.issue sl.control unproved due
  let s := if sl.pulseEnd.isSome then s.setCode sl.mod sl.channel .off else s
  s.freeSlot k

/-- The condition under which a readback confirms a command of a mode (R111). -/
def CommandMode.confirmedBy (mode : CommandMode) (c : Channel) (level : Bool) : Bool :=
  c.lastSent = some c.drive &&
    match mode with
    | .set => c.drive = .on && level
    | .clear => c.drive = .off && !level
    | .flash => c.drive = .flash
    | .pulse => false

/-- The readback of module `m` at one slot (R111). -/
def State.confirmSlot (m : ModuleNo) (levels : BitVec 32) (t : Time) (s : State) (k : SlotNo) :
    State :=
  match s.slot k with
  | none => s
  | some sl =>
    if sl.phase = .confirming ∧ sl.mod = m then
      match s.channel m sl.channel with
      | none => s
      | some c =>
        if sl.mode.confirmedBy c (levels.getLsbD sl.channel) then
          (s.issue sl.control .executed t).freeSlot k
        else s
    else s

/-- The CSU takes the readback of a module (R111). -/
def State.csuReadback (s : State) (m : ModuleNo) (levels : BitVec 32) (t : Time) : State :=
  allSlots.foldl (State.confirmSlot m levels t) s

/-- The CSU takes the notice that a channel has become FAULTED at readback time `t` (R112). -/
def State.csuChannelFault (s : State) (m : ModuleNo) (ch : ChannelNo) (t : Time) : State :=
  match s.ownerOf m ch with
  | none => s
  | some k =>
    match s.slot k with
    | none => s
    | some sl => (s.issueIfOpen sl .outputFault t).freeSlot k

/-- The notice that module `m` has gone LOST at one slot (R113). -/
def State.loseSlot (m : ModuleNo) (t : Time) (s : State) (k : SlotNo) : State :=
  match s.slot k with
  | none => s
  | some sl => if sl.mod = m then (s.issueIfOpen sl .moduleLost t).freeSlot k else s

/-- The CSU takes the notice that module `m` has gone LOST, missed scan at `t` (R113). -/
def State.csuModuleLost (s : State) (m : ModuleNo) (t : Time) : State :=
  allSlots.foldl (State.loseSlot m t) s

/-- CANCEL ends a slot at its dispatch time `e` (R114). -/
def State.cancelSlot (s : State) (k : SlotNo) (sl : Slot) (e : Time) : State :=
  let s := s.issueIfOpen sl .cancelled e
  let s :=
    match sl.mode with
    | .pulse | .flash => s.setCode sl.mod sl.channel .off
    | .set | .clear => s
  s.freeSlot k

/-- Desk-silence expiry at one slot (R115). -/
def State.silenceSlot (e : Time) (s : State) (k : SlotNo) : State :=
  match s.slot k with
  | none => s
  | some sl =>
    let s := s.issueIfOpen sl .cancelledLink e
    let s :=
      if sl.mode = .pulse ∧ sl.pulseEnd.isSome then s.setCode sl.mod sl.channel .off else s
    s.freeSlot k

/-- The CSU takes the desk-silence expiry at elapsed time `e`: every slot ends, then drop flashing
(R115). -/
def State.csuSilence (s : State) (e : Time) : State :=
  (allSlots.foldl (State.silenceSlot e) s).dropFlashing

/-! ### Readback supervision with its notices (R94, R96, R97) -/

/-- One channel of a supervised readback: the new record, the CHANNEL record and the CSU's notice,
before the next channel is taken (R94, R96, R97). -/
def State.superviseChannel (m : ModuleNo) (levels : BitVec 32) (t : Time) (s : State)
    (ch : ChannelNo) : State :=
  match s.channel m ch with
  | none => s
  | some c =>
    match c.supervise (levels.getLsbD ch) t s.system.settleTime with
    | .unchanged c' => s.setChannel m ch c'
    | .fault c' => ((s.setChannel m ch c').hand t (.channel m ch false)).csuChannelFault m ch t
    | .clear c' => (s.setChannel m ch c').hand t (.channel m ch true)

/-- The ODU takes a readback: supervised when the module is ACTIVE after the scan, then handed to the
CSU in every state (R94, R99). -/
def State.oduReadback (s : State) (m : ModuleNo) (levels : BitVec 32) (t : Time) : State :=
  let s :=
    if (s.moduleRec m).state = .active then
      (List.finRange 32).foldl (State.superviseChannel m levels t) s
    else s
  s.csuReadback m levels t

end Sys2Proof.Machine
end

