-- ==== Sys2Proof/Machine/Pe.lean ====
section
/-! DEFINITION. Point Evaluator: handing on what changed, module notices, image arrivals,
substitution, release and the trace (Chapters 1 and 11). -/

namespace Sys2Proof.Machine

/-! ### Handing on (R10) -/

/-- A POINT record of a point whose reported view has changed and whose report flag is set (R14). -/
def State.handPoint (s : State) (p : PointNo) (old new : PointRecord) (t : Time)
    (extra : PointExtra) : State :=
  if new.view ≠ old.view ∧ (s.ts.active.pointEntry p).report then
    s.hand t (.point p new.reported new.substituted extra)
  else s

/-- Steps 1 and 2 of R10 for a point whose record becomes `new`: the POINT record, then the CSU's
notice. -/
def State.handOn (s : State) (p : PointNo) (new : PointRecord) (t : Time) (extra : PointExtra) :
    State :=
  let old := s.pointRec p
  let s := (s.setPointRec p new).handPoint p old new t extra
  if new.evaluated ≠ old.evaluated then s.csuNotice p new.evaluated else s

/-- The trace comparison at an evaluation that formed a sample (R163). -/
def State.traceSample (s : State) (p : PointNo) (levels : TraceLevels) (t : Time) : State :=
  if s.pe.tracedPoint = some p ∧ s.pe.lastOffered ≠ some levels then
    let s := s.handTrace t p levels
    { s with pe := { s.pe with lastOffered := some levels } }
  else s

/-- A point found not deliverable: loss clearing, unless it is already UNKNOWN with that cause, when its
fields are left as they are (R6). DESIGN CHOICE where it is lost again before it has left UNKNOWN: R6
keeps its working fields and R51 has it start without them, so the model keeps and marks them here, and
the next sample starts without them (log entry 27). -/
def State.losePoint (s : State) (p : PointNo) (t : Time) : State :=
  let cause := s.lossCause (s.ts.active.pointEntry p)
  let r := s.pointRec p
  if r.evaluated = .unknown cause then s.setPointRec p r.lostAgain
  else s.handOn p (r.loseTo cause) t .none

/-- The point joins the set handed to the AGE when its reported state has changed (R10 step 4). -/
def changedBetween (before after : State) (p : PointNo) (set : List PointNo) : List PointNo :=
  if (after.pointRec p).reported ≠ (before.pointRec p).reported then set ++ [p] else set

/-- The defined points with a contact of their class on a logical module, ascending (R8, R9). -/
def State.pointsOn (s : State) (m : ModuleNo) : List PointNo :=
  s.ts.active.points.keysWhere .empty fun e => e.usesModule m

/-! ### Module notices (R8) -/

/-- One point at a module notice of time `t` (R8). -/
def noticePoint (t : Time) (acc : State × List PointNo) (p : PointNo) : State × List PointNo :=
  let (s, set) := acc
  if s.pointDeliverable (s.ts.active.pointEntry p) then acc
  else
    let s' := s.losePoint p t
    (s', changedBetween s s' p set)

/-- The PE takes a module notice of time `t`, and hands the AGE the points it changed (R8, R11). -/
def State.moduleNotice (s : State) (m : ModuleNo) (t : Time) : State :=
  let (s', set) := (s.pointsOn m).foldl (noticePoint t) (s, [])
  s'.ageNotice set t

/-! ### Image arrivals (R9 to R12) -/

/-- The evaluation of one point at an image arrival, and what it hands on (R9, R10). -/
def State.arriveAt (s : State) (arr : BankImage) (p : PointNo) : State :=
  let e := s.ts.active.pointEntry p
  if s.pointDeliverable e then
    match s.evaluate arr e (s.pointRec p) with
    | none => s
    | some v => (s.handOn p v.record arr.time v.extra).traceSample p v.raw arr.time
  else s.losePoint p arr.time

/-- The PE takes the image `arr`, frees its bank, and makes the arrival hand-over (R9, R11). Which
groups an arrival hand-over evaluates does not depend on the set of changed points (R57), so the set
is not formed. -/
def State.takeArrival (s : State) (arr : BankImage) (rest : List BankImage) : State :=
  let s' := (s.pointsOn arr.mod).foldl (fun s p => s.arriveAt arr p) s
  let s' := { s' with slc := { s'.slc with banks := rest } }
  s'.ageArrival arr.mod arr.time

/-! ### Substitution and release (R15, R16) -/

/-- A telegram's change of a point's substitute value, with its POINT record when the reported view
changes (R15, R16). -/
def State.setSubstitute (s : State) (p : PointNo) (v : Option StateValue) (extra : PointExtra) :
    State :=
  let old := s.pointRec p
  let new := { old with substitute := v }
  (s.setPointRec p new).handPoint p old new s.now extra

/-- A SUBSTITUTE's value imposed on a point, which goes to the AGE when its reported view changes
(R15). -/
def State.imposeSubstitute (s : State) (p : PointNo) (v : StateValue) : State :=
  let s' := s.setSubstitute p (some v) .none
  if (s'.pointRec p).view ≠ (s.pointRec p).view then s'.ageChange [p] s.now else s'

/-- A substitute value removed: the point goes to the AGE when its reported state changes, and its POINT
record carries period and duty when it is FLASHING and both halves exist (R16). -/
def State.removeSubstitute (s : State) (p : PointNo) : State :=
  let s' := s.setSubstitute p none { s.pointRec p with substitute := none }.periodExtra
  if (s'.pointRec p).reported ≠ (s.pointRec p).reported then s'.ageChange [p] s.now else s'

end Sys2Proof.Machine
end

