-- ==== Sys2Proof/Machine/Dli.lean ====
section
/-! DEFINITION. Desk Link Interface: the refresh walk, drawing records into INDICATIONs, the
transmitter's choice of work, and the dispatch of buffered telegrams (Chapters 8 and 9). -/

namespace Sys2Proof.Machine

/-! ### The refresh (R129, R130) -/

/-- A refresh record: REFRESH flag set, the desk time of its placement (R123, R130). -/
def State.refreshRecord (s : State) (content : RecordContent) : Record :=
  { refresh := true, deskTime := s.deskTime s.now, content := content }

/-- The refresh record of a point (R130). -/
def State.refreshPoint (s : State) (p : PointNo) : Record :=
  let r := s.pointRec p
  s.refreshRecord (.point p r.reported r.substituted r.periodExtra)

/-- The lowest eligible point at or above a number: defined and reported (R129). -/
def State.eligiblePoint (s : State) (n : Nat) : Option PointNo :=
  (s.ts.active.points.keysWhere .empty fun e => e.isDefined && e.report).find? fun p => n ≤ p.val

/-- The lowest eligible group at or above a number: defined and reported (R129). -/
def State.eligibleGroup (s : State) (n : Nat) : Option GroupNo :=
  (s.groupsWhere fun e => e.report).find? fun g => n ≤ g.val

/-- The lowest eligible module at or above a number: used (R129). -/
def State.eligibleModule (s : State) (n : Nat) : Option ModuleNo :=
  (s.ts.active.moduleMap.keysWhere .empty fun e => e.use ≠ .unused).find? fun m => n ≤ m.val

/-- A placement, with the cursor it leaves (R129). -/
abbrev Placement := Record × Option Cursor

/-- The placement at END: REFRESH_END, and the cursor becomes absent (R129). -/
def State.placeEnd (s : State) : Placement := (s.refreshRecord .refreshEnd, none)

/-- The placement from MODULES with next number `n` (R129). -/
def State.placeModule (s : State) (n : Nat) : Placement :=
  match s.eligibleModule n with
  | some m => (s.refreshRecord (.module m (s.moduleRec m).state), some (.modules (m.val + 1)))
  | none => s.placeEnd

/-- The placement from GROUPS with next number `n` (R129). -/
def State.placeGroup (s : State) (n : Nat) : Placement :=
  match s.eligibleGroup n with
  | some g => (s.refreshRecord (.group g (s.groupRec g).code), some (.groups (g.val + 1)))
  | none => s.placeModule 0

/-- The placement from POINTS with next number `n` (R129). -/
def State.placePoint (s : State) (n : Nat) : Placement :=
  match s.eligiblePoint n with
  | some p => (s.refreshPoint p, some (.points (p.val + 1)))
  | none => s.placeGroup 0

/-- The cursor's next placement (R129). -/
def State.place (s : State) : Cursor → Placement
  | .points n => s.placePoint n
  | .groups n => s.placeGroup n
  | .modules n => s.placeModule n
  | .atEnd => s.placeEnd

/-- Refresh records for up to `room` places, with the cursor left (R131 step 2). -/
def State.refreshRecords (s : State) : Nat → Option Cursor → List Record × Option Cursor
  | 0, c => ([], c)
  | _ + 1, none => ([], none)
  | room + 1, some c =>
    let (record, next) := s.place c
    let (records, last) := s.refreshRecords room next
    (record :: records, last)

/-! ### INDICATION assembly (R131) -/

/-- The state with the transmitter sending a telegram. -/
def State.sending (s : State) (t : OutTelegram) : State :=
  { s with dli := { s.dli with transmitter := some t } }

/-- Assembly of an INDICATION: up to 16 records, queued ones first, then the header (R131). -/
def State.assemble (s : State) : State :=
  let drawn := s.cq.queue.take Config.recordsPerIndication
  let (placed, cursor) :=
    s.refreshRecords (Config.recordsPerIndication - drawn.length) s.cq.cursor
  let records := drawn ++ placed
  let s := { s with cq := { s.cq with
    queue := s.cq.queue.drop Config.recordsPerIndication, cursor := cursor } }
  s.sending (.indication (s.header records.length) records)

/-- An idle telegram: an INDICATION with no records (R144). -/
def State.sendIdle (s : State) : State := s.sending (.indication (s.header 0) [])

/-- The CQ has something to offer: a queued record, or a refresh in progress (R131). -/
def State.cqOffers (s : State) : Bool := !s.cq.queue.isEmpty || s.cq.cursor.isSome

/-- A header may be formed: no RESTART is in progress (R140), and no desk-silence expiry was taken at
this moment, between which and a reception at the same moment no header is formed (R146; log entry
28). -/
def State.mayIndicate (s : State) : Bool := !s.dli.restarting && !s.dli.expiryOpen

/-- The transmitter's next work while it is free: the oldest ANSWER, else an INDICATION when the CQ
offers one and a header may be formed (R142, cases 1, 2 and 4). -/
def State.transmitNext (s : State) : State :=
  match s.dli.transmitter with
  | some _ => s
  | none =>
    match s.dli.answers with
    | a :: rest => { s with dli := { s.dli with answers := rest } }.sending (.answer a)
    | [] => if s.mayIndicate && s.cqOffers then s.assemble else s

/-! ### Whether an event takes place -/

/-- An event of the part. While the RESET input is held low nothing happens (R167, log entry 7). An
event whose own condition does not hold changes nothing (log entry 2). After an event the transmitter
takes what work the event gave it (R142). -/
def State.occur (s : State) (event : State → Option State) : Host.Outcome State Fault Refusal :=
  if s.resetHeld then .next s
  else
    match event s with
    | none => .next s
    | some s' => .next s'.transmitNext

/-! ### Dispatch (R137, R138) -/

/-- The three conditions under which the DLI dispatches the older buffered telegram (R137). -/
def State.dispatchable (s : State) : Option RxTelegram :=
  if s.dli.answers.isEmpty && !s.dli.restarting then s.dli.buffers.head? else none

/-- The permission of a kind in a mode (R138). -/
def DeskKind.permitted (k : DeskKind) (mode : Mode) : Bool :=
  match k with
  | .control | .cancel | .interrogate | .timeSet | .diagRead | .tableRead | .modeRequest => true
  | .tableWrite | .tableCommit | .substitute | .release | .traceSelect | .counterClear
  | .restart => mode ≠ .operate

/-- The body lengths a TABLE_WRITE allows: those of 1 to 8 entries of the table it names, and every
length from 3 to 256 when it names none of the six (R137, R170). -/
def tableWriteLength (body : List Byte) : Bool :=
  3 ≤ body.length &&
    match TableId.ofCode (num8 body 0) with
    | none => body.length ≤ 256
    | some t =>
      (body.length - 3) % t.entrySize = 0 && 1 ≤ (body.length - 3) / t.entrySize &&
        (body.length - 3) / t.entrySize ≤ 8

/-- The body length is one that the kind allows (R137 check 2, R170). -/
def DeskKind.lengthAllowed (k : DeskKind) (body : List Byte) : Bool :=
  match k with
  | .control | .cancel | .modeRequest => body.length = 1
  | .interrogate | .tableCommit | .counterClear | .restart => body.length = 0
  | .timeSet | .tableRead => body.length = 4
  | .substitute | .diagRead => body.length = 3
  | .release | .traceSelect => body.length = 2
  | .tableWrite => tableWriteLength body

/-- The older buffered telegram leaves its buffer (R136). -/
def State.freeBuffer (s : State) : State :=
  { s with dli := { s.dli with buffers := s.dli.buffers.tail } }

/-- The dispatch of a telegram of a known kind: checks 2 and 3 of R137, then its owner. -/
def State.dispatchTo (s : State) (k : DeskKind) (t : RxTelegram)
    (owner : RxTelegram → State → State) : State :=
  let s := s.freeBuffer
  if !k.lengthAllowed t.body then s.answer t.kind .badLength
  else if !k.permitted s.ts.mode then s.answer t.kind .notPermitted
  else owner t s

/-- The event of a dispatched telegram of kind `k` whose body is one the row takes. -/
def State.dispatch (k : DeskKind) (takes : List Byte → Bool) (owner : RxTelegram → State → State)
    (s : State) : Option State :=
  match s.dispatchable with
  | none => none
  | some t =>
    if DeskKind.ofByte t.kind = some k && takes t.body then some (s.dispatchTo k t owner) else none

/-- A row that takes every telegram of its kind. -/
def anyBody (_ : List Byte) : Bool := true

end Sys2Proof.Machine
end

