-- ==== Sys2Proof/Machine/Commands.lean ====
section
/-! DEFINITION. The command path: CONTROL, CANCEL, PULSE_END, PROVING_DEADLINE and
DESK_SILENCE_EXPIRY (Chapters 7 and 9). -/

namespace Sys2Proof.Machine

/-- The control number a CONTROL or CANCEL names (R170). -/
def controlOf (body : List Byte) : ControlNo := (byteAt body 0).toFin

/-- CONTROL (R105, R106): checked, and rejected, ended ALREADY, or accepted into a slot. It has no
ANSWER (R137). -/
def execControl (s : State) : Host.Outcome State Fault Refusal :=
  s.occur <| State.dispatch .control anyBody fun t s => s.takeControl (controlOf t.body)

/-- CANCEL at the CSU: the slot that holds the control ends, or NOT_ACTIVE (R114). -/
def State.takeCancel (s : State) (request : Byte) (c : ControlNo) : State :=
  match s.slotOfControl c with
  | none => s.answer request .notActive
  | some k =>
    match s.slot k with
    | none => s.answer request .notActive
    | some sl => (s.cancelSlot k sl s.now).answer request .accepted (u8 c.val)

/-- CANCEL (R114). -/
def execCancel (s : State) : Host.Outcome State Fault Refusal :=
  s.occur <| State.dispatch .cancel anyBody fun t s => s.takeCancel t.kind (controlOf t.body)

/-- A slot's pulse end that has fallen due (R104, R108). -/
def State.pulseDue (s : State) (k : SlotNo) : Option (Slot × Time) :=
  match s.slot k with
  | none => none
  | some sl =>
    match sl.pulseEnd with
    | none => none
    | some due => if reached due s.now then some (sl, due) else none

/-- PULSE_END (R108). -/
def execPulseEnd (slot : SlotNo) (s : State) : Host.Outcome State Fault Refusal :=
  s.occur fun s => (s.pulseDue slot).map fun (sl, due) => s.endPulse slot sl due

/-- A PROVING slot's deadline that has fallen due (R104, R110). -/
def State.deadlineDue (s : State) (k : SlotNo) : Option (Slot × Time) :=
  match s.slot k with
  | none => none
  | some sl =>
    match sl.deadline with
    | none => none
    | some due => if sl.phase = .proving ∧ reached due s.now then some (sl, due) else none

/-- PROVING_DEADLINE (R110). -/
def execProvingDeadline (slot : SlotNo) (s : State) : Host.Outcome State Fault Refusal :=
  s.occur fun s => (s.deadlineDue slot).map fun (sl, due) => s.endProving slot sl due

/-- The desk-silence time has expired: the timer runs, LINK_SILENT is clear, and the elapsed time has
reached the silence start plus the desk-silence time (R145). -/
def State.silenceDue (s : State) : Bool :=
  s.configured && s.system.silenceTime ≠ 0 && !s.dli.linkSilent &&
    s.system.silenceTime ≤ interval s.dli.silenceStart s.now

/-- The expiry at its elapsed time `e`: LINK_SILENT is set, the counter rises, and the CSU ends its
slots; no header is formed until its moment is over (R146; log entry 28). -/
def State.expireSilence (s : State) (e : Time) : State :=
  { s with dli := { s.dli with
      linkSilent := true, silenceEvents := bump s.dli.silenceEvents
      expiryOpen := true } }.csuSilence e

/-- DESK_SILENCE_EXPIRY (R146). -/
def execDeskSilenceExpiry (s : State) : Host.Outcome State Fault Refusal :=
  s.occur fun s =>
    if s.silenceDue then
      some (s.expireSilence (after s.dli.silenceStart s.system.silenceTime))
    else none

end Sys2Proof.Machine
end

