-- ==== Sys2Proof/Machine/Diagnostics.lean ====
section
/-! DEFINITION. DIAG_READ of a point, a group, a module, a slot and the part (R165, R171). Where R171
leaves a width open, log entry 15 says which one stands here. -/

namespace Sys2Proof.Machine

/-- An optional field: a presence byte, and the value only when present (R171). -/
def optional {α : Type} (f : α → List Byte) : Option α → List Byte
  | none => [0]
  | some v => 1 :: f v

/-- An evaluated or reported state with its cause. DEDUCED: the cause is sent with no presence byte, an
absent cause as code 0 (log entry 15). -/
def PointState.bytes (p : PointState) : List Byte := u8 p.codes.1 ++ u8 p.codes.2

/-- The contents of DIAG_READ POINT (R165). DESIGN CHOICE: the stored report flag is sent, with no presence
byte, for every class, NONE included (log entry 31). DEDUCED: the filtered level and the level of the level
candidate take 1 byte each, 0 or 1, as a flag does (log entry 15). -/
def State.diagPoint (s : State) (p : PointNo) : List Byte :=
  let e := s.ts.active.pointEntry p
  let r := s.pointRec p
  u8 e.cls.code ++ flag e.report ++ r.evaluated.bytes ++ r.reported.bytes ++ flag r.substituted ++
    optional (fun v => u8 v.code) r.substitute ++
    optional (fun c : Candidate => u8 c.target.code ++ u32 c.start) r.candidate ++
    optional u32 r.openSince ++ optional millis4 r.pendingTransfer ++
    optional millis4 r.lastTransfer ++
    optional flag (if e.cls = .pair then some r.slowTransfer else none) ++
    optional flag r.filteredLevel ++
    optional (fun c : LevelCandidate => flag c.level ++ u32 c.start) r.levelCandidate ++
    optional u32 r.lastEdge ++ optional millis4 r.lastOnHalf ++ optional millis4 r.lastOffHalf ++
    optional u8 (if e.cls = .flasher then some r.integration else none) ++
    flag (s.pe.tracedPoint = some p)

/-- The contents of DIAG_READ GROUP (R165). DESIGN CHOICE: the stored report flag is sent, with no presence
byte, for an undefined group too (log entry 31). DEDUCED: the cause is sent with no presence byte, an absent
cause as code 0 (log entry 15). -/
def State.diagGroup (s : State) (g : GroupNo) : List Byte :=
  let e := s.ts.active.groupEntry g
  let r := s.groupRec g
  flag e.isDefined ++ flag e.report ++ u8 r.code.codes.1 ++ u8 r.code.codes.2 ++
    optional u32 r.noMatchStart

/-- One channel in DIAG_READ MODULE: drive code, start byte with its start, last sent code (R171). -/
def Channel.diag (c : Channel) : List Byte :=
  u8 c.drive.wire ++
    (match c.condition with
    | .normal none => [0]
    | .normal (some t) => 1 :: u32 t
    | .faulted none => [2]
    | .faulted (some t) => 3 :: u32 t) ++
    match c.lastSent with
    | none => [255]
    | some code => u8 code.wire

/-- The contents of DIAG_READ MODULE (R165). DESIGN CHOICE: the stored line address is sent, with no presence
byte, for an UNUSED logical module too (log entry 31). -/
def State.diagModule (s : State) (m : ModuleNo) : List Byte :=
  let e := s.ts.active.moduleEntry m
  let r := s.moduleRec m
  u8 e.use.code ++ u16 e.address ++ u8 r.state.code ++ u8 r.good ++ u8 r.miss ++
    optional flag (if e.use = .input then some r.wetting else none) ++ u16 r.replyTimeouts ++
    u16 r.crcErrors ++ u16 r.formatErrors ++ u16 r.missedScans ++ u16 r.lossEvents ++
    optional (fun i : LatestImage => levelBytes i.levels 8 ++ u32 i.time) r.image ++
    optional (fun i : LatestReadback => levelBytes i.levels 4 ++ u32 i.time) r.readback ++
    if e.use = .output then
      ((List.finRange 32).map fun ch => ((s.channel m ch).getD .init).diag).flatten
    else []

/-- The contents of DIAG_READ SLOT (R165, R121). DESIGN CHOICE: the end-on-proof flag of an occupied slot
is returned as stored and present, in DRIVING and CONFIRMING too, where R103 has no use for it (log entry
31). -/
def State.diagSlot (s : State) (k : SlotNo) : List Byte :=
  let o := s.slot k
  u8 (phaseCode (o.map Slot.phase)) ++ optional (fun sl : Slot => u8 sl.control.val) o ++
    optional (fun sl : Slot => u8 sl.mod.val ++ u8 sl.channel.val) o ++
    optional (fun sl : Slot => u8 sl.mode.wire) o ++
    optional (fun q : PointNo × StateValue => u16 q.1.val ++ u8 q.2.code) (o.bind Slot.proving) ++
    optional (fun sl : Slot => flag sl.endOnProof) o ++
    optional (fun sl : Slot => u32 sl.acceptedAt) o ++ optional u32 (o.bind Slot.pulseEnd) ++
    optional u32 (o.bind Slot.deadline) ++
    optional (fun r : CommandResult => u8 r.code) (o.bind Slot.result)

/-- The refresh position: phase and next number (R171). -/
def Cursor.bytes : Cursor → List Byte
  | .points n => u8 0 ++ u16 n
  | .groups n => u8 1 ++ u16 n
  | .modules n => u8 2 ++ u16 n
  | .atEnd => u8 3 ++ u16 0

/-- The contents of DIAG_READ PART (R165). -/
def State.diagPart (s : State) : List Byte :=
  u8 s.ts.mode.code ++ flag s.configured ++ flag s.ts.commitPending ++ u8 (keyCode s.ts.key) ++
    flag s.dli.linkSilent ++ u16 s.cq.queue.length ++ optional Cursor.bytes s.cq.cursor ++
    flag s.cq.traceGap ++ optional (fun p : PointNo => u16 p.val) s.pe.tracedPoint ++
    u8 s.slc.banks.length ++ u16 s.slc.cycleOverruns ++ u16 s.cq.queueOverflows ++
    u16 s.dli.crcErrors ++ u16 s.dli.rxOverruns ++ u16 s.dli.silenceEvents ++ u32 s.now ++
    u32 s.tb.offset

/-- The DIAG_READs of one selector; one of a length that is not allowed, or with a selector that is
none of the five, is any row's. -/
def namesSelector (selector : Nat) (body : List Byte) : Bool :=
  body.length ≠ 3 || num8 body 0 = selector || 4 < num8 body 0

/-- A DIAG_READ of a selector with `count` indexes: ACCEPTED with the contents, or OUT_OF_RANGE
(R165). -/
def State.takeDiagRead (s : State) (t : RxTelegram) (selector count : Nat)
    (contents : State → Fin count → List Byte) : State :=
  let index := num16 t.body 1
  if num8 t.body 0 ≠ selector then s.answer t.kind .outOfRange
  else if h : index < count then s.answer t.kind .accepted (contents s ⟨index, h⟩)
  else s.answer t.kind .outOfRange

/-- DIAG_READ_POINT (R165). -/
def execDiagReadPoint (s : State) : Host.Outcome State Fault Refusal :=
  s.occur <| State.dispatch .diagRead (namesSelector 0) fun t s =>
    s.takeDiagRead t 0 1024 State.diagPoint

/-- DIAG_READ_GROUP (R165). -/
def execDiagReadGroup (s : State) : Host.Outcome State Fault Refusal :=
  s.occur <| State.dispatch .diagRead (namesSelector 1) fun t s =>
    s.takeDiagRead t 1 128 State.diagGroup

/-- DIAG_READ_MODULE (R165). -/
def execDiagReadModule (s : State) : Host.Outcome State Fault Refusal :=
  s.occur <| State.dispatch .diagRead (namesSelector 2) fun t s =>
    s.takeDiagRead t 2 32 State.diagModule

/-- DIAG_READ_SLOT (R165). -/
def execDiagReadSlot (s : State) : Host.Outcome State Fault Refusal :=
  s.occur <| State.dispatch .diagRead (namesSelector 3) fun t s =>
    s.takeDiagRead t 3 16 State.diagSlot

/-- DIAG_READ_PART (R165); its index is ignored (R170). -/
def execDiagReadPart (s : State) : Host.Outcome State Fault Refusal :=
  s.occur <| State.dispatch .diagRead (namesSelector 4) fun t s =>
    if num8 t.body 0 = 4 then s.answer t.kind .accepted s.diagPart
    else s.answer t.kind .outOfRange

end Sys2Proof.Machine
end

