-- ==== Sys2Proof/WellFormed.lean ====
section
/-! DEFINITION. Which commands are well formed: the ones whose operands can belong to the event the
command names, whatever the state. -/

namespace Sys2Proof

/-- Two bytes read as one number, most significant first (R168). -/
def wfPair (hi lo : Byte) : Nat := hi.toNat * 256 + lo.toNat

/-- The bytes of one telegram from the length field to the last CRC byte: two length bytes announcing
at most 256, the kind, that many body bytes and two CRC bytes (R170). -/
def telegramShape (bytes : List Byte) : Bool :=
  match bytes with
  | hi :: lo :: _ :: rest => wfPair hi lo ≤ Config.maxBody && rest.length == wfPair hi lo + 2
  | _ => false

/-- The bytes of one reply frame whose reception ended at its announced length: address, kind, data
length of at most the longest reply's, the data and two CRC bytes (R76, R169). -/
def replyShape (frame : List Byte) : Bool :=
  match frame with
  | _ :: _ :: n :: rest => n.toNat ≤ Config.longestReplyData && rest.length == n.toNat + 2
  | _ => false

/-- The well-formed commands. -/
def Instr.wellFormed : Instr → Bool
  | .receiveTelegram bytes => telegramShape bytes
  | .receiveTruncated gap => Config.byteGapLimit < gap
  | .receiveOverlong length => Config.maxBody < length.toNat
  | .inputReply reply => replyShape reply.frame
  | .driveReply reply => replyShape reply.frame
  | .keyWithdrawal stood => Config.keyStandTime ≤ stood
  | .keyPresented stood => Config.keyStandTime ≤ stood
  | .powerOnReset _ | .restartReset _ | .resetAsserted => true
  | .unknownKind | .control | .cancel | .interrogate | .timeSet => true
  | .modeRequestOperate | .modeRequestMaintenance | .modeRequestNeither => true
  | .tableWrite | .tableRead | .tableCommit | .substitute | .release => true
  | .traceSelectPoint | .traceSelectNone | .counterClear | .restart => true
  | .diagReadPoint | .diagReadGroup | .diagReadModule | .diagReadSlot | .diagReadPart => true
  | .transmitEnd | .idleIntervalExpiry | .deskSilenceExpiry => true
  | .cycleStart | .commitSwap | .inputPoll | .drivePoll => true
  | .replyTimeout _ | .replySilence _ | .replyFirstByte _ => true
  | .imageArrival | .pulseEnd _ | .provingDeadline _ | .syncByte => true

end Sys2Proof
end

