-- ==== Sys2Proof/Machine/Slc.lean ====
section
/-! DEFINITION. Scan Line Controller: cycle starts and finishes, attempts, the checks of a reply, the
module state machine and what a scan hands on (Chapter 5). -/

namespace Sys2Proof.Machine

/-! ### The module state machine (R82, R83) -/

/-- A module record after a good scan (R82). -/
def ModuleRec.goodScan (r : ModuleRec) (sys : SystemRecord) : ModuleRec :=
  let good := min (r.good + 1) Config.scanCountLimit
  { r with
    good := good
    miss := 0
    state :=
      match r.state with
      | .suspect => .active
      | .starting => if sys.recoveryCount ≤ good then .active else .starting
      | .lost => if sys.recoveryCount ≤ good then .active else .lost
      | .active => .active
      | .unused => .unused }

/-- A module record after a missed scan (R83). -/
def ModuleRec.missedScan (r : ModuleRec) (sys : SystemRecord) : ModuleRec :=
  let miss := min (r.miss + 1) Config.scanCountLimit
  let loses := r.state.heard && sys.lossThreshold ≤ miss
  { r with
    good := 0
    miss := miss
    missedScans := if r.state = .lost then r.missedScans else bump r.missedScans
    lossEvents := if loses then bump r.lossEvents else r.lossEvents
    state := if loses then .lost else if r.state = .active then .suspect else r.state }

/-! ### Handing on a change of state (R84) -/

/-- The notices of a module's change to a new state: to the PE for an INPUT module, to the ODU and
then the CSU for an OUTPUT module (R84, R98, R113). -/
def State.stateNotices (s : State) (m : ModuleNo) (new : ModuleState) (t : Time) : State :=
  match s.useOf m with
  | .input => s.moduleNotice m t
  | .output => if new = .lost then (s.oduModuleLost m).csuModuleLost m t else s
  | .unused => s

/-- The MODULE record of a change of state (R84). -/
def State.moduleRecord (s : State) (m : ModuleNo) (old new : ModuleState) (t : Time) : State :=
  if new ≠ old then s.hand t (.module m new) else s

/-! ### Cycles (R69 to R72) -/

/-- The lowest used module with a logical number of at least `n` (R70). -/
def State.usedFrom (s : State) (n : Nat) : Option ModuleNo :=
  (List.finRange 32).find? fun m => n ≤ m.val && s.useOf m ≠ .unused

/-- The state with the cycle in progress replaced. -/
def State.setCycle (s : State) (c : Option Cycle) : State :=
  { s with slc := { s.slc with cycle := c } }

/-- The next due time after a start at `start` whose own due time was `due`: the first grid point
after the start (R69). -/
def nextGridPoint (due start : Time) (period : Nat) : Time :=
  after due ((interval due start / period + 1) * period)

/-- A cycle starts at the present time; a late start raises CYCLE_OVERRUNS (R69, R71). Its first poll
is held while a commit is pending (R72); a cycle with no used module finishes at its start (R70). -/
def State.startCycle (s : State) (late : Bool) : State :=
  match s.slc.nextDue with
  | none => s
  | some due =>
    let cycle : Cycle := { start := s.now, held := s.ts.commitPending, next := 0, scan := none }
    { s with slc := { s.slc with
        nextDue := some (nextGridPoint due s.now s.system.scanPeriod)
        lateWaiting := false
        cycle := if cycle.held || (s.usedFrom 0).isSome then some cycle else none
        cycleOverruns := if late then bump s.slc.cycleOverruns else s.slc.cycleOverruns } }

/-- A cycle start fell due while the cycle now finishing was running: the SLC already waits for it,
or the due time lies before the present time (R71). -/
def State.startOverdue (s : State) : Bool :=
  s.slc.lateWaiting ||
    match s.slc.nextDue with
    | none => false
    | some due => due ≠ s.now && reached due s.now

/-- The cycle finishes when it is not held, no scan is in progress and no used module is left; a cycle
whose start fell due meanwhile then starts late (R70, R71). -/
def State.finishIfDone (s : State) : State :=
  match s.slc.cycle with
  | none => s
  | some c =>
    if c.held || c.scan.isSome || (s.usedFrom c.next).isSome then s
    else
      let s := s.setCycle none
      if s.startOverdue then s.startCycle true else s

/-- The hold of a cycle start ends (R72, R157). -/
def State.endHold (s : State) : State :=
  match s.slc.cycle with
  | none => s
  | some c => if c.held then (s.setCycle (some { c with held := false })).finishIfDone else s

/-- The scan of module `m` has ended (R70). -/
def State.endScan (s : State) (m : ModuleNo) : State :=
  match s.slc.cycle with
  | none => s
  | some c => (s.setCycle (some { c with next := m.val + 1, scan := none })).finishIfDone

/-! ### Missed and good scans (R78 to R80) -/

/-- A missed scan at time `t`: the state machine, what the change hands on, and the end of the scan
(R78, R83, R84). -/
def State.missScan (s : State) (m : ModuleNo) (t : Time) : State :=
  let old := s.moduleRec m
  let new := old.missedScan s.system
  let s := (s.setModuleRec m new).moduleRecord m old.state new.state t
  let s := if new.state ≠ old.state then s.stateNotices m new.state t else s
  s.endScan m

/-- An attempt that failed at time `t`: another attempt follows while the scan has had fewer than
1 + retries, otherwise the scan is missed (R78). -/
def State.failAttempt (s : State) (c : Cycle) (sc : Scan) (t : Time) : State :=
  if sc.sent < 1 + s.system.retries then
    s.setCycle (some { c with scan := some { sc with line := .toSend } })
  else s.missScan sc.mod t

/-- An image is placed in a free reply bank (R74). -/
def State.placeImage (s : State) (image : BankImage) : State :=
  if s.slc.banks.length < Config.replyBanks then
    { s with slc := { s.slc with banks := s.slc.banks ++ [image] } }
  else s

/-- An accepted INPUT REPLY: the five actions of R79, then the end of the scan. -/
def State.acceptInput (s : State) (m : ModuleNo) (levels : BitVec 64) (wetting : Bool) (t : Time) :
    State :=
  let old := s.moduleRec m
  let new := { old with image := some ⟨levels, t⟩, wetting := wetting }.goodScan s.system
  let s := (s.setModuleRec m new).moduleRecord m old.state new.state t
  let s :=
    if new.state ≠ old.state ∨ new.wetting ≠ old.wetting then s.moduleNotice m t else s
  let s := if new.state = .active then s.placeImage ⟨m, levels, t⟩ else s
  s.endScan m

/-- An accepted DRIVE REPLY: the four actions of R80, then the end of the scan. -/
def State.acceptDrive (s : State) (m : ModuleNo) (levels : BitVec 32) (t : Time) : State :=
  let old := s.moduleRec m
  let new := { old with readback := some ⟨levels, t⟩ }.goodScan s.system
  let s := (s.setModuleRec m new).moduleRecord m old.state new.state t
  let s := if new.state ≠ old.state then s.stateNotices m new.state t else s
  (s.oduReadback m levels t).endScan m

/-! ### The line clock (R76) -/

/-- The line clock some microseconds after a reading (R76). -/
def LineTime.later (a : LineTime) (micros : Nat) : LineTime :=
  { ms := after a.ms ((a.micros.val + micros) / 1000)
    micros := ⟨(a.micros.val + micros) % 1000, Nat.mod_lt _ (by decide)⟩ }

/-- The microseconds from one reading of the line clock to another; negative when the second lies before
the first (R76). -/
def LineTime.microsTo (a b : LineTime) : Int :=
  (b.ms - a.ms).toInt * 1000 + (b.micros.val : Int) - (a.micros.val : Int)

/-- The line clock stands at `clock` within the present millisecond (R76). -/
def State.lineAt (s : State) (clock : Micros) : LineTime := { ms := s.now, micros := clock }

/-- The state with the line clock's last reading replaced. -/
def State.setLineClock (s : State) (clock : Micros) : State :=
  { s with slc := { s.slc with lineClock := clock } }

/-- The end of the reply window of an attempt (R76). -/
def State.windowEnd (s : State) (sc : Scan) : LineTime := sc.since.later s.system.replyWindow

/-- A first byte that begins with the line clock at `clock` begins within the reply window, its end
included (R76). -/
def State.beginsInWindow (s : State) (sc : Scan) (clock : Micros) : Bool :=
  let waited := sc.since.microsTo (s.lineAt clock)
  s.slc.lineClock ≤ clock && 0 ≤ waited && waited ≤ s.system.replyWindow

/-- The reply window of an attempt has ended as the line clock stands at `clock` (R76). -/
def State.windowEnded (s : State) (sc : Scan) (clock : Micros) : Bool :=
  s.slc.lineClock ≤ clock && (s.system.replyWindow : Int) ≤ sc.since.microsTo (s.lineAt clock)

/-- How long the bytes of a reply run, from the beginning of the first to the end of the last before the
line is silent for longer than the reply window (R76). -/
def Scan.runLength (sc : Scan) : Nat := Config.byteTime + sc.more.toNat

/-- The first reading of the line clock at which the line has been silent for longer than the reply window
after the bytes of a reply, so that its reception ends (R76). -/
def State.silenceEnd (s : State) (sc : Scan) : LineTime :=
  sc.since.later (sc.runLength + s.system.replyWindow + 1)

/-- The line has been silent for longer than the reply window as the line clock stands at `clock` (R76). -/
def State.silentPast (s : State) (sc : Scan) (clock : Micros) : Bool :=
  s.slc.lineClock ≤ clock &&
    (sc.runLength + s.system.replyWindow : Nat) < sc.since.microsTo (s.lineAt clock)

/-- The longest time that `n` bytes take to arrive with no silence longer than the reply window between
two of them (R76). -/
def State.longestReception (s : State) (n : Nat) : Nat :=
  n * Config.byteTime + (n - 1) * s.system.replyWindow

/-- The `n` bytes of a reply that has begun can have ended with the line clock at `clock`: they take 10
microseconds each, no silence between two of them was longer than the reply window, and they are among the
bytes that run on the line (R76). -/
def State.endsWhole (s : State) (sc : Scan) (n : Nat) (clock : Micros) : Bool :=
  let taken := sc.since.microsTo (s.lineAt clock)
  s.slc.lineClock ≤ clock && (n * Config.byteTime : Nat) ≤ taken && taken ≤ s.longestReception n &&
    taken ≤ sc.runLength

/-! ### Attempts and replies (R75 to R78) -/

/-- The poll the SLC may send to a module of a use: a retry of the scan in progress, or the first
attempt of the next used module's scan, which for an INPUT module waits for a free bank (R70, R73,
R78). It gives the cycle, the module and the number of attempts then sent. -/
def State.pollReady (s : State) (use : Use) : Option (Cycle × ModuleNo × Nat) :=
  match s.slc.cycle with
  | none => none
  | some c =>
    if c.held then none
    else
      match c.scan with
      | some sc =>
        if sc.line = .toSend ∧ s.useOf sc.mod = use then some (c, sc.mod, sc.sent + 1) else none
      | none =>
        match s.usedFrom c.next with
        | none => none
        | some m =>
          if s.useOf m = use ∧ (use = .input → s.slc.banks.length < Config.replyBanks) then
            some (c, m, 1)
          else none

/-- The length of a use's poll in bytes (R169). -/
def Use.pollLength : Use → Nat
  | .input | .unused => Config.frameOverhead
  | .output => Config.frameOverhead + 8

/-- A poll is sent at the line clock's last reading, and its reply is awaited from the end of its last
byte (R75, R76). -/
def State.sendPoll (s : State) (c : Cycle) (m : ModuleNo) (sent : Nat) : State :=
  let pollEnd := (s.lineAt s.slc.lineClock).later ((s.useOf m).pollLength * Config.byteTime)
  s.setCycle (some { c with
    scan := some { mod := m, sent := sent, line := .awaiting, since := pollEnd, more := 0 } })

/-- The scan in progress when its line is in a given phase. -/
def State.scanIn (s : State) (line : LinePhase) : Option (Cycle × Scan) :=
  match s.slc.cycle with
  | none => none
  | some c =>
    match c.scan with
    | none => none
    | some sc => if sc.line = line then some (c, sc) else none

/-- The poll frame on the line for the attempt that awaits its reply (R75, R93, R169). -/
def State.pollFrame (s : State) : Option (List Byte) :=
  match s.scanIn .awaiting with
  | none => none
  | some (_, sc) =>
    let e := s.ts.active.moduleEntry sc.mod
    match e.use with
    | .input => some (inputPollFrame e.address)
    | .output => some (drivePollFrame e.address fun ch =>
        ((s.channel sc.mod ch).bind Channel.lastSent).getD .off)
    | .unused => none

/-- The outcome of the checks of a reply (R77). -/
inductive ReplyCheck where
  | crcError
  | formatError
  | wellFormed
  deriving DecidableEq, Repr

/-- The CRC of a run of bytes whose last two bytes are the CRC is correct. -/
def crcCorrect (bytes : List Byte) : Bool :=
  crcBytes (bytes.take (bytes.length - 2)) = bytes.drop (bytes.length - 2)

/-- Checks 2 to 5 of R77 on a reply that arrived whole; check 1 fails only at a reply ended by
silence. -/
def ModuleEntry.checkReply (e : ModuleEntry) (f : List Byte) : ReplyCheck :=
  if !crcCorrect f then .crcError
  else if num8 f 0 ≠ e.address then .formatError
  else if num8 f 1 ≠ e.use.replyKind then .formatError
  else if num8 f 2 ≠ e.use.replyLength then .formatError
  else .wellFormed

/-- REPLY_TIMEOUTS of a module rises (R76). -/
def ModuleRec.countTimeout (r : ModuleRec) : ModuleRec :=
  { r with replyTimeouts := bump r.replyTimeouts }

/-- CRC_ERRORS of a module rises (R77). -/
def ModuleRec.countCrc (r : ModuleRec) : ModuleRec := { r with crcErrors := bump r.crcErrors }

/-- FORMAT_ERRORS of a module rises (R77). -/
def ModuleRec.countFormat (r : ModuleRec) : ModuleRec :=
  { r with formatErrors := bump r.formatErrors }

/-- The flag byte of a reply's data: byte 8 of an INPUT REPLY, byte 4 of a DRIVE REPLY (R169). -/
def replyFlags (use : Use) (data : List Byte) : Byte := byteAt data (use.replyLength - 1)

/-- A well-formed reply from module `m`: a module fault ends the scan as missed at once, otherwise
the reply is accepted (R78). -/
def State.judgeReply (s : State) (m : ModuleNo) (use : Use) (data : List Byte) : State :=
  let flags := replyFlags use data
  if flags.getLsbD 1 then s.missScan m s.now
  else
    match use with
    | .input => s.acceptInput m (imageLevels data) (flags.getLsbD 0) s.now
    | .output => s.acceptDrive m (readbackLevels data) s.now
    | .unused => s

/-- The reception of a whole reply ends: its checks, and what follows (R76 to R78). The event is the one of
a well-formed reply of the use `use`; a reply that fails a check is either's (log entry 23). -/
def State.takeReply (s : State) (use : Use) (reply : Reply) : Option State :=
  match s.scanIn .receiving with
  | none => none
  | some (c, sc) =>
    let f := reply.frame
    if !replyShape f || !s.endsWhole sc f.length reply.clock then none
    else
      let s := s.setLineClock reply.clock
      let e := s.ts.active.moduleEntry sc.mod
      match e.checkReply f with
      | .crcError =>
        some ((s.setModuleRec sc.mod (s.moduleRec sc.mod).countCrc).failAttempt c sc s.now)
      | .formatError =>
        some ((s.setModuleRec sc.mod (s.moduleRec sc.mod).countFormat).failAttempt c sc s.now)
      | .wellFormed => if e.use = use then some (s.judgeReply sc.mod use (replyData f)) else none

end Sys2Proof.Machine
end

