-- ==== Sys2Proof/Machine/Ts.lean ====
section
/-! DEFINITION. Table Store: writing and reading entries, validation, the commit swap with what every
block does at it, the withdrawal of a commit, and the mode (Chapter 10). -/

namespace Sys2Proof.Machine

/-! ### Writing tables (R150) -/

/-- A run of entries parsed in order, with whether a field of any was clamped; none when an
enumerated field of any entry is outside its list (R150 check 4). -/
def parseEntries {α : Type} (parse : List Byte → Option (α × Bool)) (size : Nat) :
    Nat → List Byte → Option (List α × Bool)
  | 0, _ => some ([], false)
  | k + 1, bytes =>
    match parse (bytes.take size), parseEntries parse size k (bytes.drop size) with
    | some (e, c), some (es, cs) => some (e :: es, c || cs)
    | _, _ => none

/-- Entries written to consecutive indexes, each replacing the whole entry (R150). -/
def writeEntries {n : Nat} {α : Type} [DecidableEq α] (d : α) (t : Table n α) (first : Nat) :
    List α → Table n α
  | [] => t
  | e :: es =>
    writeEntries d (if h : first < n then t.set d ⟨first, h⟩ e else t) (first + 1) es

/-- A bank with `count` entries of a table written from an index, with whether a field was clamped
(R150, R151). -/
def Tables.write (b : Tables) (table : TableId) (first count : Nat) (data : List Byte) :
    Option (Tables × Bool) :=
  match table with
  | .moduleMap =>
    (parseEntries ModuleEntry.parse table.entrySize count data).map fun (es, c) =>
      ({ b with moduleMap := writeEntries .empty b.moduleMap first es }, c)
  | .points =>
    (parseEntries PointEntry.parse table.entrySize count data).map fun (es, c) =>
      ({ b with points := writeEntries .empty b.points first es }, c)
  | .groups =>
    (parseEntries GroupEntry.parse table.entrySize count data).map fun (es, c) =>
      ({ b with groups := writeEntries .empty b.groups first es }, c)
  | .patterns =>
    (parseEntries PatternEntry.parse table.entrySize count data).map fun (es, c) =>
      ({ b with patterns := writeEntries .empty b.patterns first es }, c)
  | .commands =>
    (parseEntries CommandEntry.parse table.entrySize count data).map fun (es, c) =>
      ({ b with commands := writeEntries .empty b.commands first es }, c)
  | .system =>
    (parseEntries SystemRecord.parse table.entrySize count data).map fun (es, c) =>
      ({ b with system := es.getLastD b.system }, c)

/-- The outcome of a TABLE_WRITE: its status, SHADOW as it then stands, and the payload (R150). DEDUCED:
the entry count of the payload is one byte, a width that no rule states (log entry 30). -/
def State.writeTable (s : State) (body : List Byte) : AnswerStatus × Tables × List Byte :=
  let shadow := s.ts.shadow
  if s.ts.commitPending then (.busy, shadow, [])
  else
    match TableId.ofCode (num8 body 0) with
    | none => (.outOfRange, shadow, [])
    | some table =>
      let first := num16 body 1
      let count := (body.length - 3) / table.entrySize
      if table.entries < first + count then (.outOfRange, shadow, [])
      else
        match shadow.write table first count (body.drop 3) with
        | none => (.outOfRange, shadow, [])
        | some (shadow', clamped) =>
          (if clamped then .clamped else .accepted, shadow',
            u8 table.code ++ u16 first ++ u8 count)

/-! ### Reading tables (R152) -/

/-- One entry of a bank in its TABLE_WRITE form; none where the index is outside the table. -/
def Tables.readEntry (b : Tables) (table : TableId) (index : Nat) : Option (List Byte) :=
  match table with
  | .moduleMap => if h : index < 32 then some (b.moduleEntry ⟨index, h⟩).bytes else none
  | .points => if h : index < 1024 then some (b.pointEntry ⟨index, h⟩).bytes else none
  | .groups => if h : index < 128 then some (b.groupEntry ⟨index, h⟩).bytes else none
  | .patterns => if h : index < 512 then some (b.patternEntry ⟨index, h⟩).bytes else none
  | .commands => if h : index < 256 then some (b.commandEntry ⟨index, h⟩).bytes else none
  | .system => if index = 0 then some b.system.bytes else none

/-- The bank a code names (R168). -/
def State.bankOf (s : State) : Nat → Option Tables
  | 0 => some s.ts.active
  | 1 => some s.ts.shadow
  | _ => none

/-- The payload of a TABLE_READ that is accepted (R152, R171). -/
def State.readTable (s : State) (body : List Byte) : Option (List Byte) :=
  match s.bankOf (num8 body 0), TableId.ofCode (num8 body 1) with
  | some bank, some table =>
    (bank.readEntry table (num16 body 2)).map fun entry => body.take 4 ++ entry
  | _, _ => none

/-! ### Validation (R153) -/

/-- Check 1: a used entry holds the line address of a lower-numbered used entry. -/
def Tables.moduleFails (t : Tables) (m : ModuleNo) : Bool :=
  (t.moduleEntry m).use ≠ .unused &&
    (List.finRange 32).any fun k =>
      k < m && (t.moduleEntry k).use ≠ .unused && (t.moduleEntry k).address = (t.moduleEntry m).address

/-- Two contacts are the same input: logical module and contact number, not the invert flag (R1). -/
def Contact.sameInput (a b : Contact) : Bool := a.mod = b.mod && a.contact = b.contact

/-- Check 2: a contact not on an INPUT module, a PAIR with one contact, or a FLASHER whose minimum
exceeds its maximum. -/
def Tables.pointFails (t : Tables) (p : PointNo) : Bool :=
  let e := t.pointEntry p
  (e.contacts.any fun c => (t.moduleEntry c.mod).use ≠ .input) ||
    (e.cls = .pair && e.a.sameInput e.b) ||
    (e.cls = .flasher && e.halfMax < e.halfMin)

/-- A pattern requires, at some position of a group, a state not valid for the class of the group's
member there; a member of class NONE is passed over (R153 check 3 and note 2). -/
def Tables.patternFailsFor (t : Tables) (pattern : PatternEntry) (g : GroupEntry) : Bool :=
  (pattern.required.toList.zip g.memberList).any fun (required, p) =>
    match required with
    | none => false
    | some v =>
      (t.pointEntry p).isDefined && !v.validFor (t.pointEntry p).cls

/-- Check 3: the pattern lies in the range of a defined group for which it fails. -/
def Tables.patternFails (t : Tables) (i : PatternNo) : Bool :=
  (t.groups.keysWhere .empty fun g =>
    g.isDefined && g.patternRange.contains i && t.patternFailsFor (t.patternEntry i) g) ≠ []

/-- Check 4: a member of class NONE, a point twice in the list, or a range beyond index 511. -/
def Tables.groupFails (t : Tables) (g : GroupNo) : Bool :=
  let e := t.groupEntry g
  e.isDefined &&
    ((e.memberList.any fun p => !(t.pointEntry p).isDefined) || !decide e.memberList.Nodup ||
      decide (511 < e.firstPattern.val + e.patternCount - 1))

/-- Check 5: the output module is not OUTPUT, the proving point is of class NONE, or the expected
state is not valid for its class. -/
def Tables.commandFails (t : Tables) (c : ControlNo) : Bool :=
  let e := t.commandEntry c
  e.defined &&
    ((t.moduleEntry e.mod).use ≠ .output ||
      match e.proving with
      | none => false
      | some p =>
        !(t.pointEntry p).isDefined || !e.expected.validFor (t.pointEntry p).cls)

/-- Every field of the System Record lies within its range (R149). -/
def SystemRecord.inRange (r : SystemRecord) : Bool :=
  4 ≤ r.scanPeriod && r.scanPeriod ≤ 50 && 100 ≤ r.replyWindow && r.replyWindow ≤ 2000 &&
    r.retries ≤ 3 && 1 ≤ r.lossThreshold && r.lossThreshold ≤ 15 && 1 ≤ r.recoveryCount &&
    r.recoveryCount ≤ 15 && 20 ≤ r.settleTime && r.settleTime ≤ 1000 &&
    (r.silenceTime = 0 || (500 ≤ r.silenceTime && r.silenceTime ≤ 30000)) &&
    200 ≤ r.idleInterval && r.idleInterval ≤ 5000 && 16 ≤ r.watermark && r.watermark ≤ 248

/-- The first entry of a table that fails its check. Only a listed entry can fail: the empty entry of
each table passes. -/
def firstFailing {n : Nat} {α : Type} (table : TableId) (t : Table n α) (fails : Fin n → Bool) :
    Option (TableId × Nat) :=
  ((t.keys.filter fails).head?).map fun i => (table, i.val)

/-- Validation: the first entry that fails, tables in the fixed order and entries ascending (R153). -/
def Tables.firstInvalid (t : Tables) : Option (TableId × Nat) :=
  (firstFailing .moduleMap t.moduleMap t.moduleFails).or <|
    (firstFailing .points t.points t.pointFails).or <|
    (firstFailing .patterns t.patterns t.patternFails).or <|
    (firstFailing .groups t.groups t.groupFails).or <|
    (firstFailing .commands t.commands t.commandFails).or <|
    if t.system.inRange then none else some (.system, 0)

/-! ### What is kept at the swap (R86, R18, R66) -/

/-- A used module whose entry is identical in both banks keeps its record (R86). -/
def moduleKept (old new : Tables) (m : ModuleNo) : Bool :=
  (old.moduleEntry m).use ≠ .unused && old.moduleEntry m = new.moduleEntry m

/-- The module record after the swap: the five counters are kept in every case (R86). -/
def swapModule (old new : Tables) (m : ModuleNo) (r : ModuleRec) : ModuleRec :=
  if moduleKept old new m then r
  else
    match (old.moduleEntry m).use, (new.moduleEntry m).use with
    | .unused, .unused => r
    | _, .unused =>
      { r with state := .unused, good := 0, miss := 0, wetting := false, image := none,
               readback := none }
    | _, _ =>
      { r with state := .starting, good := 0, miss := 0, wetting := false, image := none,
               readback := none }

/-- A point keeps its record when its entry is identical in both banks and its contacts lie on
modules kept (R155 step 5, R18). -/
def pointKept (old new : Tables) (p : PointNo) : Bool :=
  old.pointEntry p = new.pointEntry p &&
    (new.pointEntry p).contacts.all fun c => moduleKept old new c.mod

/-- The point record after the swap: kept without its substitute value, or re-initialised (R17,
R18). -/
def swapPoint (old new : Tables) (p : PointNo) (r : PointRecord) : PointRecord :=
  if pointKept old new p then { r with substitute := none } else .init

/-- A group is kept when its entry, its pattern range and its members were all kept (R66). -/
def groupKept (old new : Tables) (g : GroupNo) : Bool :=
  let e := new.groupEntry g
  old.groupEntry g = e &&
    (e.patternRange.all fun i => old.patternEntry i = new.patternEntry i) &&
    e.memberList.all fun p => pointKept old new p

/-- The group record after the swap (R66). -/
def swapGroup (old new : Tables) (g : GroupNo) (r : GroupRecord) : GroupRecord :=
  if groupKept old new g then r else .init

/-- The channel records of a module after the swap: kept, discarded or created (R100). -/
def swapChannels (old new : Tables) (m : ModuleNo) (bank : Option (Table 32 Channel)) :
    Option (Table 32 Channel) :=
  if (new.moduleEntry m).use = .output then if moduleKept old new m then bank else some []
  else none

/-- The trace selection after the swap (R164). -/
def swapTrace (old new : Tables) (pe : PointEvaluator) : PointEvaluator :=
  match pe.tracedPoint with
  | none => pe
  | some p =>
    if !(new.pointEntry p).isDefined then { pe with tracedPoint := none, lastOffered := none }
    else if pointKept old new p then pe
    else { pe with lastOffered := none }

/-! ### The swap, block by block (R155) -/

/-- Steps 1 and 2: ACTIVE takes SHADOW's content, commit-pending is cleared, and COMMITTED joins the
answer list. -/
def State.swapBanks (s : State) : State :=
  { s with ts := { s.ts with active := s.ts.shadow, commitPending := false } }.answer
    DeskKind.tableCommit.byte .committed

/-- Steps 3, 4, 5, 6, 7 and 8: the records of every block after the comparison of the banks. -/
def State.swapRecords (s : State) (old new : Tables) : State :=
  { s with
    slc := { s.slc with
      modules := Table.tabulate .init fun m => swapModule old new m (s.moduleRec m) }
    pe := swapTrace old new
      { s.pe with points := Table.update .init (swapPoint old new) s.pe.points }
    groups := Table.update .init (swapGroup old new) s.groups
    channels := Table.tabulate none fun m => swapChannels old new m (s.channelBank m) }

/-- Step 4, the grid: at the first commit the swap's elapsed time is the grid origin and the first
cycle is due there; a later swap that changes the scan period makes the start of the cycle in which
it takes place the origin (R69). -/
def State.swapGrid (s : State) (first : Bool) (old new : Tables) : State :=
  if first then
    { s with slc := { s.slc with
      gridOrigin := some s.now, nextDue := some s.now, lateWaiting := false } }
  else if old.system.scanPeriod ≠ new.system.scanPeriod then
    let origin :=
      match s.slc.cycle with
      | some c => c.start
      | none => s.now
    { s with slc := { s.slc with
      gridOrigin := some origin
      nextDue := some (nextGridPoint origin origin new.system.scanPeriod)
      lateWaiting := false } }
  else s

/-- Step 9: the silence start at the first commit or at a changed desk-silence time (R145). -/
def State.swapSilence (s : State) (first : Bool) (old new : Tables) : State :=
  if first || old.system.silenceTime ≠ new.system.silenceTime then
    { s with dli := { s.dli with silenceStart := s.now } }
  else s

/-- Step 11: at the first commit after a reset the mode becomes OPERATE. -/
def State.swapMode (s : State) (first : Bool) : State :=
  if first then { s with ts := { s.ts with mode := .operate } } else s

/-- The swap (R155). -/
def State.swap (s : State) : State :=
  let first := !s.configured
  let old := s.ts.active
  let new := s.ts.shadow
  ((((s.swapBanks.swapRecords old new).swapGrid first old new).swapSilence first old
    new).startRefresh).swapMode first

/-! ### Commit and modes (R154, R156 to R158) -/

/-- TABLE_COMMIT at the TS (R154). -/
def State.takeCommit (s : State) (request : Byte) : State :=
  if s.ts.commitPending then s.answer request .busy
  else if s.anySlotOccupied then s.answer request .busy
  else
    match s.ts.shadow.firstInvalid with
    | some (table, index) => s.answer request .invalidEntry (u8 table.code ++ u16 index)
    | none =>
      if s.ts.mode = .unconfigured then s.swap
      else { s with ts := { s.ts with commitPending := true } }

/-- A pending commit is withdrawn (R157). -/
def State.withdrawCommit (s : State) : State :=
  if s.ts.commitPending then
    ({ s with ts := { s.ts with commitPending := false } }.answer
      DeskKind.tableCommit.byte .withdrawn).endHold
  else s

/-- The mode changes from MAINTENANCE to OPERATE, which withdraws a pending commit (R156, R158). -/
def State.leaveMaintenance (s : State) : State :=
  { s with ts := { s.ts with mode := .operate } }.withdrawCommit

/-- The change of mode that a MODE_REQUEST brings about, if it is obeyed (R156). -/
def State.requestMode (s : State) (named : Nat) : Option State :=
  match named, s.ts.mode with
  | 1, .operate => some s
  | 1, .maintenance => some s.leaveMaintenance
  | 2, .operate =>
    if s.ts.key = .presented then some { s with ts := { s.ts with mode := .maintenance } }
    else none
  | 2, .maintenance => if s.ts.key = .presented then some s else none
  | _, _ => none

/-- MODE_REQUEST at the TS (R156, R171). -/
def State.takeModeRequest (s : State) (request : Byte) (named : Nat) : State :=
  match s.requestMode named with
  | none => s.answer request .notPermitted
  | some s' => s'.answer request .accepted (u8 s'.ts.mode.code)

/-- The commit swap at a held cycle start may take place: both reply banks are free, and the AGE has
finished every hand-over (R72). -/
def State.swapReady (s : State) : Option Cycle :=
  match s.slc.cycle with
  | none => none
  | some c => if c.held ∧ s.ts.commitPending ∧ s.slc.banks = [] ∧ s.age.handOvers = [] then some c
    else none

end Sys2Proof.Machine
end

