-- ==== Sys2Proof/Machine/KeyInput.lean ====
section
/-! DEFINITION. The MAINT key input: KEY_WITHDRAWAL and KEY_PRESENTED (R158, R167). -/

namespace Sys2Proof.Machine

/-- The state with the sensed key level replaced. -/
def State.setKey (s : State) (k : KeyLevel) : State := { s with ts := { s.ts with key := k } }

/-- KEY_WITHDRAWAL (R158): the contact has stood withdrawn for 20 ms, the sensed level changes, and
MAINTENANCE returns to OPERATE. -/
def execKeyWithdrawal (stood : Nat) (s : State) : Host.Outcome State Fault Refusal :=
  s.occur fun s =>
    if s.ts.key = .presented ∧ Config.keyStandTime ≤ stood then
      let s := s.setKey .withdrawn
      some (if s.ts.mode = .maintenance then s.leaveMaintenance else s)
    else none

/-- KEY_PRESENTED (R158): the contact has stood presented for 20 ms and the sensed level changes; no
mode changes. -/
def execKeyPresented (stood : Nat) (s : State) : Host.Outcome State Fault Refusal :=
  s.occur fun s =>
    if s.ts.key = .withdrawn ∧ Config.keyStandTime ≤ stood then some (s.setKey .presented)
    else none

end Sys2Proof.Machine
end

