-- ==== Sys2Proof/Machine/Management.lean ====
section
/-! DEFINITION. Management telegrams: UNKNOWN_KIND, INTERROGATE, TIME_SET, the MODE_REQUESTs,
COUNTER_CLEAR and RESTART (Chapters 5, 8 to 11). -/

namespace Sys2Proof.Machine

/-- UNKNOWN_KIND (R137 check 1): answered UNKNOWN_KIND with the received kind value. -/
def execUnknownKind (s : State) : Host.Outcome State Fault Refusal :=
  s.occur fun s =>
    match s.dispatchable with
    | none => none
    | some t =>
      if DeskKind.ofByte t.kind = none then some (s.freeBuffer.answer t.kind .unknownKind)
      else none

/-- INTERROGATE (R128): the refresh starts, and the telegram is answered ACCEPTED. -/
def execInterrogate (s : State) : Host.Outcome State Fault Refusal :=
  s.occur <| State.dispatch .interrogate anyBody fun t s => s.startRefresh.answer t.kind .accepted

/-- The desk-time offset from a desk time and the reception time of the telegram (R161). -/
def State.setDeskTime (s : State) (desk received : Time) : State :=
  { s with tb := { s.tb with offset := desk - received } }

/-- TIME_SET (R161). -/
def execTimeSet (s : State) : Host.Outcome State Fault Refusal :=
  s.occur <| State.dispatch .timeSet anyBody fun t s =>
    (s.setDeskTime (time32 t.body 0) t.received).answer t.kind .accepted

/-- The MODE_REQUESTs that name OPERATE; one of a length that is not allowed is any row's. -/
def namesOperate (body : List Byte) : Bool := body.length ≠ 1 || num8 body 0 = 1

/-- The MODE_REQUESTs that name MAINTENANCE; one of a length that is not allowed is any row's. -/
def namesMaintenance (body : List Byte) : Bool := body.length ≠ 1 || num8 body 0 = 2

/-- The MODE_REQUESTs that name neither; one of a length that is not allowed is any row's. -/
def namesNeither (body : List Byte) : Bool :=
  body.length ≠ 1 || (num8 body 0 ≠ 1 && num8 body 0 ≠ 2)

/-- MODE_REQUEST_OPERATE (R156). -/
def execModeRequestOperate (s : State) : Host.Outcome State Fault Refusal :=
  s.occur <| State.dispatch .modeRequest namesOperate fun t s => s.takeModeRequest t.kind 1

/-- MODE_REQUEST_MAINTENANCE (R156). -/
def execModeRequestMaintenance (s : State) : Host.Outcome State Fault Refusal :=
  s.occur <| State.dispatch .modeRequest namesMaintenance fun t s => s.takeModeRequest t.kind 2

/-- MODE_REQUEST_NEITHER (R156). -/
def execModeRequestNeither (s : State) : Host.Outcome State Fault Refusal :=
  s.occur <| State.dispatch .modeRequest namesNeither fun t s =>
    s.takeModeRequest t.kind (num8 t.body 0)

/-- A module record with its five counters at 0 (R90). -/
def ModuleRec.clearCounters (r : ModuleRec) : ModuleRec :=
  { r with replyTimeouts := 0, crcErrors := 0, formatErrors := 0, missedScans := 0,
           lossEvents := 0 }

/-- Every counter of the part is set to 0 (R90). -/
def State.clearCounters (s : State) : State :=
  { s with
    slc := { s.slc with
      modules := Table.update .init (fun _ r => r.clearCounters) s.slc.modules
      cycleOverruns := 0 }
    cq := { s.cq with queueOverflows := 0 }
    dli := { s.dli with crcErrors := 0, rxOverruns := 0, silenceEvents := 0 } }

/-- COUNTER_CLEAR (R90). -/
def execCounterClear (s : State) : Host.Outcome State Fault Refusal :=
  s.occur <| State.dispatch .counterClear anyBody fun t s =>
    s.clearCounters.answer t.kind .accepted

/-- RESTART in progress begins (R140). -/
def State.beginRestart (s : State) : State := { s with dli := { s.dli with restarting := true } }

/-- RESTART (R140). -/
def execRestart (s : State) : Host.Outcome State Fault Refusal :=
  s.occur <| State.dispatch .restart anyBody fun t s => (s.answer t.kind .accepted).beginRestart

end Sys2Proof.Machine
end

