-- ==== Sys2Proof/Machine/PointTelegrams.lean ====
section
/-! DEFINITION. Telegrams about points: SUBSTITUTE, RELEASE, TRACE_SELECT_POINT and TRACE_SELECT_NONE
(Chapters 1 and 11). -/

namespace Sys2Proof.Machine

/-- The point a number names, if it lies in 0 to 1023. -/
def pointOf (n : Nat) : Option PointNo := if h : n < 1024 then some ⟨n, h⟩ else none

/-- The point and the value of a SUBSTITUTE that passes the checks of R15. -/
def State.checkSubstitute (s : State) (number code : Nat) : Option (PointNo × StateValue) :=
  match pointOf number, StateValue.ofCode code with
  | some p, some v =>
    if (s.ts.active.pointEntry p).isDefined && v.validFor (s.ts.active.pointEntry p).cls then
      some (p, v)
    else none
  | _, _ => none

/-- SUBSTITUTE at the PE (R15). -/
def State.takeSubstitute (s : State) (request : Byte) (number code : Nat) : State :=
  match s.checkSubstitute number code with
  | none => s.answer request .outOfRange
  | some (p, v) => (s.imposeSubstitute p v).answer request .accepted (u16 p.val)

/-- SUBSTITUTE (R15). -/
def execSubstitute (s : State) : Host.Outcome State Fault Refusal :=
  s.occur <| State.dispatch .substitute anyBody fun t s =>
    s.takeSubstitute t.kind (num16 t.body 0) (num8 t.body 2)

/-- RELEASE at the PE (R16). -/
def State.takeRelease (s : State) (request : Byte) (number : Nat) : State :=
  match pointOf number with
  | none => s.answer request .outOfRange
  | some p =>
    match (s.pointRec p).substitute with
    | none => s.answer request .notActive
    | some _ => (s.removeSubstitute p).answer request .accepted (u16 p.val)

/-- RELEASE (R16). -/
def execRelease (s : State) : Host.Outcome State Fault Refusal :=
  s.occur <| State.dispatch .release anyBody fun t s => s.takeRelease t.kind (num16 t.body 0)

/-- The trace selection becomes a point or none: the last offered levels are absent and the trace-gap
flag is clear (R162, R126). -/
def State.selectTrace (s : State) (p : Option PointNo) : State :=
  { s with
    pe := { s.pe with tracedPoint := p, lastOffered := none }
    cq := { s.cq with traceGap := false } }

/-- The number by which a TRACE_SELECT names none (R170). -/
def traceNone : Nat := 65535

/-- The TRACE_SELECTs that name a point; one of a length that is not allowed is any row's. -/
def namesTracePoint (body : List Byte) : Bool := body.length ≠ 2 || num16 body 0 ≠ traceNone

/-- The TRACE_SELECTs that name none; one of a length that is not allowed is any row's. -/
def namesTraceNone (body : List Byte) : Bool := body.length ≠ 2 || num16 body 0 = traceNone

/-- TRACE_SELECT of a point at the PE (R162). -/
def State.takeTraceSelect (s : State) (request : Byte) (number : Nat) : State :=
  match pointOf number with
  | none => s.answer request .outOfRange
  | some p =>
    if (s.ts.active.pointEntry p).isDefined then
      (s.selectTrace (some p)).answer request .accepted (u16 p.val)
    else s.answer request .outOfRange

/-- TRACE_SELECT_POINT (R162). -/
def execTraceSelectPoint (s : State) : Host.Outcome State Fault Refusal :=
  s.occur <| State.dispatch .traceSelect namesTracePoint fun t s =>
    s.takeTraceSelect t.kind (num16 t.body 0)

/-- TRACE_SELECT_NONE (R162). -/
def execTraceSelectNone (s : State) : Host.Outcome State Fault Refusal :=
  s.occur <| State.dispatch .traceSelect namesTraceNone fun t s =>
    (s.selectTrace none).answer t.kind .accepted

end Sys2Proof.Machine
end

