-- ==== Sys2Proof/Machine/Reception.lean ====
section
/-! DEFINITION. Reception of desk telegrams: SYNC_BYTE, RECEIVE_TELEGRAM, RECEIVE_TRUNCATED and
RECEIVE_OVERLONG (R135, R136). -/

namespace Sys2Proof.Machine

/-- The state with the desk receiver hunting or assembling. -/
def State.setReceiver (s : State) (r : Receiver) : State :=
  { s with dli := { s.dli with receiver := r } }

/-- A desk telegram from its bytes after the sync byte, received at `t` (R136, R170). -/
def telegramOf (bytes : List Byte) (t : Time) : RxTelegram :=
  { kind := byteAt bytes 2, body := (bytes.drop 3).take (num16 bytes 0), received := t }

/-- A valid telegram at its reception time: the silence timer restarts, LINK_SILENT clears, an expiry of
the same moment is over (R146), and the telegram takes a free receive buffer or is discarded as an overrun (R136). -/
def State.receiveValid (s : State) (t : RxTelegram) : State :=
  let dli := { s.dli with silenceStart := t.received, linkSilent := false, expiryOpen := false }
  { s with dli :=
      if dli.buffers.length < Config.receiveBuffers then
        { dli with buffers := dli.buffers ++ [t] }
      else { dli with rxOverruns := bump dli.rxOverruns } }

/-- A telegram discarded for its CRC (R135). -/
def State.countDeskCrc (s : State) : State :=
  { s with dli := { s.dli with crcErrors := bump s.dli.crcErrors } }

/-- RECEIVE_TELEGRAM (R135, R136): the last CRC byte of a telegram being assembled arrives, and the
receiver ends assembly as valid or as a CRC failure. -/
def execReceiveTelegram (bytes : List Byte) (s : State) : Host.Outcome State Fault Refusal :=
  s.occur fun s =>
    if s.dli.receiver = .assembling ∧ telegramShape bytes then
      let s := s.setReceiver .hunting
      some (if crcCorrect bytes then s.receiveValid (telegramOf bytes s.now) else s.countDeskCrc)
    else none

/-- RECEIVE_TRUNCATED (R135): more than 5 ms passes between two bytes of the telegram. -/
def execReceiveTruncated (gap : Nat) (s : State) : Host.Outcome State Fault Refusal :=
  s.occur fun s =>
    if s.dli.receiver = .assembling ∧ Config.byteGapLimit < gap then
      some (s.setReceiver .hunting)
    else none

/-- RECEIVE_OVERLONG (R135): the length field announces a body longer than 256 bytes. -/
def execReceiveOverlong (length : BitVec 16) (s : State) : Host.Outcome State Fault Refusal :=
  s.occur fun s =>
    if s.dli.receiver = .assembling ∧ Config.maxBody < length.toNat then
      some (s.setReceiver .hunting)
    else none

/-- SYNC_BYTE (R135): a sync byte starts assembly while the receiver hunts; inside a telegram being
assembled it is data of that telegram. -/
def execSyncByte (s : State) : Host.Outcome State Fault Refusal :=
  s.occur fun s =>
    if s.dli.receiver = .hunting then some (s.setReceiver .assembling) else none

end Sys2Proof.Machine
end

