-- ==== Sys2Proof/Machine/Resets.lean ====
section
/-! DEFINITION. The resets: POWER_ON_RESET, RESTART_RESET and RESET_ASSERTED (R140, R167). -/

namespace Sys2Proof.Machine

/-- The state after a reset, at which the MAINT key input stands at `key`; the commands that wait and the
AGE's pace stay as they are, which are no state of the part (log entries 1 and 11). -/
def State.takeReset (s : State) (key : KeyLevel) : State :=
  { State.afterReset key with
    age := { handOvers := [], pace := s.age.pace }
    pending := s.pending }

/-- POWER_ON_RESET (R167): power reaches its range with RESET high, or RESET returns high, and the
part takes the reset. -/
def execPowerOnReset (key : KeyLevel) (s : State) : Host.Outcome State Fault Refusal :=
  .next (s.takeReset key)

/-- The telegram in transmission is the ACCEPTED answer to the RESTART in progress (R140). -/
def State.sendingRestartAnswer (s : State) : Bool :=
  s.dli.restarting &&
    match s.dli.transmitter with
    | some (.answer a) => a.request = DeskKind.restart.byte && a.status = .accepted
    | _ => false

/-- RESTART_RESET (R140 step 4): the last byte of the RESTART's ACCEPTED answer has been sent, and the
part takes the reset. -/
def execRestartReset (key : KeyLevel) (s : State) : Host.Outcome State Fault Refusal :=
  s.occur fun s => if s.sendingRestartAnswer then some (s.takeReset key) else none

/-- RESET_ASSERTED (R167): RESET goes low, and the part is held in reset until it returns high. -/
def execResetAsserted (s : State) : Host.Outcome State Fault Refusal :=
  .next { s with resetHeld := true }

end Sys2Proof.Machine
end

