-- ==== Sys2Proof/Machine/ScanEvents.lean ====
section
/-! DEFINITION. The scan line's events: CYCLE_START, INPUT_POLL, DRIVE_POLL, REPLY_FIRST_BYTE,
REPLY_TIMEOUT, REPLY_SILENCE, INPUT_REPLY, DRIVE_REPLY and IMAGE_ARRIVAL (Chapters 1 and 5). -/

namespace Sys2Proof.Machine

/-- The next due time has been reached (R71). -/
def State.startDue (s : State) : Bool :=
  match s.slc.nextDue with
  | none => false
  | some due => reached due s.now

/-- CYCLE_START (R71): the next due time is reached. While no cycle runs, a cycle starts on time; while
one runs, the SLC waits for its finish. -/
def execCycleStart (s : State) : Host.Outcome State Fault Refusal :=
  s.occur fun s =>
    if s.startDue then
      match s.slc.cycle with
      | none => some (s.startCycle false)
      | some _ =>
        if s.slc.lateWaiting then none
        else some { s with slc := { s.slc with lateWaiting := true } }
    else none

/-- INPUT_POLL (R75, R73): an attempt to an INPUT module, its first only once a reply bank is free. -/
def execInputPoll (s : State) : Host.Outcome State Fault Refusal :=
  s.occur fun s =>
    match s.pollReady .input with
    | none => none
    | some (c, m, sent) => some (s.sendPoll c m sent)

/-- DRIVE_POLL (R75, R93): an attempt to an OUTPUT module carrying its drive codes, which become the
last sent codes. -/
def execDrivePoll (s : State) : Host.Outcome State Fault Refusal :=
  s.occur fun s =>
    match s.pollReady .output with
    | none => none
    | some (c, m, sent) => some ((s.recordSentCodes m).sendPoll c m sent)

/-- REPLY_FIRST_BYTE (R76): the first byte of a reply begins within the reply window. A byte that begins
later is discarded (R81). -/
def execReplyFirstByte (byte : FirstByte) (s : State) : Host.Outcome State Fault Refusal :=
  s.occur fun s =>
    match s.scanIn .awaiting with
    | none => none
    | some (c, sc) =>
      if s.beginsInWindow sc byte.clock then
        some ((s.setLineClock byte.clock).setCycle
          (some { c with
            scan := some
              { sc with line := .receiving, since := s.lineAt byte.clock, more := byte.more } }))
      else none

/-- REPLY_TIMEOUT (R76): the reply window ends with no reply begun, and the attempt fails at that
moment. -/
def execReplyTimeout (clock : Micros) (s : State) : Host.Outcome State Fault Refusal :=
  s.occur fun s =>
    match s.scanIn .awaiting with
    | none => none
    | some (c, sc) =>
      if s.windowEnded sc clock then
        let s := s.setLineClock clock
        some ((s.setModuleRec sc.mod (s.moduleRec sc.mod).countTimeout).failAttempt c sc
          (s.windowEnd sc).ms)
      else none

/-- The line clock within the present millisecond at a moment of the line, once that millisecond has been
reached (R76). -/
def State.clockAt (s : State) (moment : LineTime) : Option Micros :=
  if reached moment.ms s.now then
    some (if moment.ms = s.now then max s.slc.lineClock moment.micros else s.slc.lineClock)
  else none

/-- The line clock at the end of the reply window of the attempt that awaits its reply, once it has been
reached (R76). -/
def State.timeoutDue (s : State) : Option Micros :=
  match s.scanIn .awaiting with
  | none => none
  | some (_, sc) => (s.clockAt (s.windowEnd sc)).filter (s.windowEnded sc)

/-- REPLY_SILENCE (R76, R77 check 1): the line has been silent for longer than the reply window during a
reply, which ends truncated or overlong. -/
def execReplySilence (clock : Micros) (s : State) : Host.Outcome State Fault Refusal :=
  s.occur fun s =>
    match s.scanIn .receiving with
    | none => none
    | some (c, sc) =>
      if s.silentPast sc clock then
        let s := s.setLineClock clock
        some ((s.setModuleRec sc.mod (s.moduleRec sc.mod).countFormat).failAttempt c sc
          (s.silenceEnd sc).ms)
      else none

/-- The line clock at which the reception in progress has ended by silence, once it has been reached: the
bytes of the reply, however many they are, have run out, and the line has been silent for longer than the
reply window since (R76). -/
def State.receptionOverdue (s : State) : Option Micros :=
  match s.scanIn .receiving with
  | none => none
  | some (_, sc) =>
    (s.clockAt (s.silenceEnd sc)).filter (s.silentPast sc)

/-- INPUT_REPLY (R79): a whole reply is checked and, when it is an accepted INPUT REPLY, stores the
image and gives its notices. -/
def execInputReply (reply : Reply) (s : State) : Host.Outcome State Fault Refusal :=
  s.occur fun s => s.takeReply .input reply

/-- DRIVE_REPLY (R80): a whole reply is checked and, when it is an accepted DRIVE REPLY, stores the
readback and hands it to the ODU. -/
def execDriveReply (reply : Reply) (s : State) : Host.Outcome State Fault Refusal :=
  s.occur fun s => s.takeReply .output reply

/-- IMAGE_ARRIVAL (R9): the PE takes the oldest held image, once the AGE has finished the hand-over of
the previous arrival (R58). -/
def execImageArrival (s : State) : Host.Outcome State Fault Refusal :=
  s.occur fun s =>
    match s.slc.banks with
    | [] => none
    | arr :: rest => if s.arrivalUnfinished then none else some (s.takeArrival arr rest)

end Sys2Proof.Machine
end

