-- ==== Sys2Proof/Machine/TableTelegrams.lean ====
section
/-! DEFINITION. Tables and the commit: TABLE_WRITE, TABLE_READ, TABLE_COMMIT and COMMIT_SWAP
(Chapter 10). -/

namespace Sys2Proof.Machine

/-- TABLE_WRITE at the TS (R150). -/
def State.takeTableWrite (s : State) (request : Byte) (body : List Byte) : State :=
  let (status, shadow, payload) := s.writeTable body
  { s with ts := { s.ts with shadow := shadow } }.answer request status payload

/-- TABLE_WRITE (R150). -/
def execTableWrite (s : State) : Host.Outcome State Fault Refusal :=
  s.occur <| State.dispatch .tableWrite anyBody fun t s => s.takeTableWrite t.kind t.body

/-- TABLE_READ at the TS (R152). -/
def State.takeTableRead (s : State) (request : Byte) (body : List Byte) : State :=
  match s.readTable body with
  | none => s.answer request .outOfRange
  | some payload => s.answer request .accepted payload

/-- TABLE_READ (R152). -/
def execTableRead (s : State) : Host.Outcome State Fault Refusal :=
  s.occur <| State.dispatch .tableRead anyBody fun t s => s.takeTableRead t.kind t.body

/-- TABLE_COMMIT (R154). -/
def execTableCommit (s : State) : Host.Outcome State Fault Refusal :=
  s.occur <| State.dispatch .tableCommit anyBody fun t s => s.takeCommit t.kind

/-- COMMIT_SWAP (R155, R72): at a held cycle start with both reply banks free SHADOW becomes ACTIVE,
and the cycle goes on under the new bank. -/
def execCommitSwap (s : State) : Host.Outcome State Fault Refusal :=
  s.occur fun s =>
    match s.swapReady with
    | none => none
    | some _ => some s.swap.endHold

end Sys2Proof.Machine
end

