-- ==== Sys2Proof/Machine/Transmission.lean ====
section
/-! DEFINITION. The desk transmitter: TRANSMIT_END and IDLE_INTERVAL_EXPIRY (R142, R144). -/

namespace Sys2Proof.Machine

/-- The transmitter becomes free, and the last send end is the present time (R142, R144). -/
def State.freeTransmitter (s : State) : State :=
  { s with dli := { s.dli with transmitter := none, lastSendEnd := s.now } }

/-- TRANSMIT_END (R142): the transmitter finishes a telegram and takes its next work. The end of the
RESTART's ACCEPTED answer is RESTART_RESET instead (R140, log entry 20). -/
def execTransmitEnd (s : State) : Host.Outcome State Fault Refusal :=
  s.occur fun s =>
    if s.dli.transmitter.isSome ∧ !s.sendingRestartAnswer then some s.freeTransmitter else none

/-- The idle interval has passed since the last send end while the transmitter is free (R144). -/
def State.idleDue (s : State) : Bool :=
  s.dli.transmitter.isNone && s.system.idleInterval ≤ interval s.dli.lastSendEnd s.now

/-- The transmitter's work once the idle interval has passed: the first case of R142 that applies. -/
def State.idleWork (s : State) : Option State :=
  if !s.dli.answers.isEmpty then some s
  else if !s.mayIndicate then none
  else if s.cqOffers then some s
  else some s.sendIdle

/-- IDLE_INTERVAL_EXPIRY (R144). -/
def execIdleIntervalExpiry (s : State) : Host.Outcome State Fault Refusal :=
  s.occur fun s => if s.idleDue then s.idleWork else none

end Sys2Proof.Machine
end

