-- ==== Sys2Proof/Machine/Dispatch.lean ====
section
/-! DEFINITION. The meaning of every command: one arm for each row of spec/opcode_table.json. -/

namespace Sys2Proof.Machine

/-- The effect of a command on everything but the queue of commands. -/
def exec (i : Instr) (s : State) : Host.Outcome State Fault Refusal :=
  match i with
  | .powerOnReset key => Sys2Proof.Machine.execPowerOnReset key s
  | .receiveTelegram bytes => Sys2Proof.Machine.execReceiveTelegram bytes s
  | .receiveTruncated gap => Sys2Proof.Machine.execReceiveTruncated gap s
  | .unknownKind => Sys2Proof.Machine.execUnknownKind s
  | .control => Sys2Proof.Machine.execControl s
  | .cancel => Sys2Proof.Machine.execCancel s
  | .interrogate => Sys2Proof.Machine.execInterrogate s
  | .timeSet => Sys2Proof.Machine.execTimeSet s
  | .modeRequestOperate => Sys2Proof.Machine.execModeRequestOperate s
  | .modeRequestMaintenance => Sys2Proof.Machine.execModeRequestMaintenance s
  | .modeRequestNeither => Sys2Proof.Machine.execModeRequestNeither s
  | .tableWrite => Sys2Proof.Machine.execTableWrite s
  | .tableRead => Sys2Proof.Machine.execTableRead s
  | .tableCommit => Sys2Proof.Machine.execTableCommit s
  | .substitute => Sys2Proof.Machine.execSubstitute s
  | .release => Sys2Proof.Machine.execRelease s
  | .traceSelectPoint => Sys2Proof.Machine.execTraceSelectPoint s
  | .traceSelectNone => Sys2Proof.Machine.execTraceSelectNone s
  | .counterClear => Sys2Proof.Machine.execCounterClear s
  | .restart => Sys2Proof.Machine.execRestart s
  | .restartReset key => Sys2Proof.Machine.execRestartReset key s
  | .diagReadPoint => Sys2Proof.Machine.execDiagReadPoint s
  | .diagReadGroup => Sys2Proof.Machine.execDiagReadGroup s
  | .diagReadModule => Sys2Proof.Machine.execDiagReadModule s
  | .diagReadSlot => Sys2Proof.Machine.execDiagReadSlot s
  | .diagReadPart => Sys2Proof.Machine.execDiagReadPart s
  | .transmitEnd => Sys2Proof.Machine.execTransmitEnd s
  | .idleIntervalExpiry => Sys2Proof.Machine.execIdleIntervalExpiry s
  | .deskSilenceExpiry => Sys2Proof.Machine.execDeskSilenceExpiry s
  | .keyWithdrawal stood => Sys2Proof.Machine.execKeyWithdrawal stood s
  | .keyPresented stood => Sys2Proof.Machine.execKeyPresented stood s
  | .cycleStart => Sys2Proof.Machine.execCycleStart s
  | .commitSwap => Sys2Proof.Machine.execCommitSwap s
  | .inputPoll => Sys2Proof.Machine.execInputPoll s
  | .drivePoll => Sys2Proof.Machine.execDrivePoll s
  | .replyTimeout clock => Sys2Proof.Machine.execReplyTimeout clock s
  | .replySilence clock => Sys2Proof.Machine.execReplySilence clock s
  | .inputReply reply => Sys2Proof.Machine.execInputReply reply s
  | .driveReply reply => Sys2Proof.Machine.execDriveReply reply s
  | .imageArrival => Sys2Proof.Machine.execImageArrival s
  | .pulseEnd slot => Sys2Proof.Machine.execPulseEnd slot s
  | .provingDeadline slot => Sys2Proof.Machine.execProvingDeadline slot s
  | .receiveOverlong length => Sys2Proof.Machine.execReceiveOverlong length s
  | .syncByte => Sys2Proof.Machine.execSyncByte s
  | .replyFirstByte byte => Sys2Proof.Machine.execReplyFirstByte byte s
  | .resetAsserted => Sys2Proof.Machine.execResetAsserted s

end Sys2Proof.Machine
end

