-- ==== Sys2Proof/Machine/Step.lean ====
section
/-! DEFINITION. One step of the block: the command at the front of the queue, or, on an empty queue,
what the part does by itself (log entry 3). -/

namespace Sys2Proof.Machine

/-- The elapsed time rises by 1, and the line clock goes on from the start of that millisecond (R76, R160);
both stand still while the RESET input is held low (R167). -/
def State.tick (s : State) : State :=
  if s.resetHeld then s
  else { s with
    tb := { s.tb with elapsed := s.tb.elapsed + 1 }
    slc := { s.slc with lineClock := 0 } }

/-- The row of the telegram the DLI may dispatch now (R137). -/
def dispatchRow (t : RxTelegram) : Instr :=
  match DeskKind.ofByte t.kind with
  | none => .unknownKind
  | some .control => .control
  | some .cancel => .cancel
  | some .interrogate => .interrogate
  | some .timeSet => .timeSet
  | some .modeRequest =>
    if namesOperate t.body then .modeRequestOperate
    else if namesMaintenance t.body then .modeRequestMaintenance
    else .modeRequestNeither
  | some .tableWrite => .tableWrite
  | some .tableRead => .tableRead
  | some .tableCommit => .tableCommit
  | some .substitute => .substitute
  | some .release => .release
  | some .traceSelect =>
    if namesTraceNone t.body then .traceSelectNone else .traceSelectPoint
  | some .diagRead =>
    if namesSelector 0 t.body then .diagReadPoint
    else if namesSelector 1 t.body then .diagReadGroup
    else if namesSelector 2 t.body then .diagReadModule
    else if namesSelector 3 t.body then .diagReadSlot
    else .diagReadPart
  | some .counterClear => .counterClear
  | some .restart => .restart

/-- What the part has left unfinished at the present moment and finishes on an empty queue, if anything:
the AGE's hand-overs (R58, log entry 11), or the moment of a desk-silence expiry, at which no reception
has followed (R146, log entry 28). -/
def State.unfinished (s : State) : Option State :=
  if s.resetHeld then none
  else if s.age.handOvers ≠ [] then some s.ageFinish.transmitNext
  else if s.dli.expiryOpen then
    some { s with dli := { s.dli with expiryOpen := false } }.transmitNext
  else none

/-- The event that the part takes by itself at the present time, if there is one. DESIGN CHOICE: a fixed
order, the swap of a held start, a dispatch, an expiry, an image arrival, a cycle start, the end of a
reply window, a reception that has run out, a poll; of several pulse ends or deadlines that have fallen
due, the one of the lowest slot first, an order that the spec does not fix (R117; log entry 3). -/
def State.selfStarted (s : State) : Option Instr :=
  if s.resetHeld then none
  else if s.swapReady.isSome then some .commitSwap
  else
    match s.dispatchable with
    | some t => some (dispatchRow t)
    | none =>
      match allSlots.find? fun k => (s.pulseDue k).isSome with
      | some k => some (.pulseEnd k)
      | none =>
        match allSlots.find? fun k => (s.deadlineDue k).isSome with
        | some k => some (.provingDeadline k)
        | none =>
          if s.silenceDue then some .deskSilenceExpiry
          else if s.idleDue && s.idleWork.isSome then some .idleIntervalExpiry
          else if !s.slc.banks.isEmpty then some .imageArrival
          else if s.startDue && !(s.slc.cycle.isSome && s.slc.lateWaiting) then some .cycleStart
          else
            match s.timeoutDue with
            | some clock => some (.replyTimeout clock)
            | none =>
              match s.receptionOverdue with
              | some clock => some (.replySilence clock)
              | none =>
                if (s.pollReady .input).isSome then some .inputPoll
                else if (s.pollReady .output).isSome then some .drivePoll
                else none

/-- One step: the command at the front of the queue is taken from it and executed; on an empty queue
the part finishes what it has left unfinished, else takes the event it starts by itself, and when there is
none a millisecond passes. -/
def step (s : State) : Host.Outcome State Fault Refusal :=
  match s.pending with
  | c :: rest => exec c { s with pending := rest }
  | [] =>
    match s.unfinished with
    | some s' => .next s'
    | none =>
      match s.selfStarted with
      | some c => exec c s
      | none => .next s.tick

/-- The state with the command that a word spells at the front of its queue; the state itself where
the word spells none. -/
def State.withFetchWord (s : State) (nbits w : Nat) : State :=
  match decodeTableWord nbits w with
  | some c => { s with pending := c :: s.pending }
  | none => s

end Sys2Proof.Machine
end

