-- ==== Sys2Proof/Safety.lean ====
section
/-! DEFINITION. What counts as a sound state: the invariants that every step keeps, most of them laws
that the spec states of the whole part, and the situations in which the claims say what a command
does. -/

namespace Sys2Proof.Machine

/-! ### Frames: the blocks an operation touches -/

/-- The parts of the state, one for each block of the part (the channels are the ODU's, the slots the
CSU's, the groups and its unfinished work the AGE's), and the RESET input. -/
inductive Block where
  | tb
  | ts
  | slc
  | pe
  | groups
  | age
  | channels
  | slots
  | cq
  | dli
  | reset
  deriving DecidableEq, Repr

/-- Two states agree on one block. -/
def Block.same (s t : State) : Block → Prop
  | .tb => t.tb = s.tb
  | .ts => t.ts = s.ts
  | .slc => t.slc = s.slc
  | .pe => t.pe = s.pe
  | .groups => t.groups = s.groups
  | .age => t.age = s.age
  | .channels => t.channels = s.channels
  | .slots => t.slots = s.slots
  | .cq => t.cq = s.cq
  | .dli => t.dli = s.dli
  | .reset => t.resetHeld = s.resetHeld

/-- `t` differs from `s` at most in the blocks of `touched`; the queue of waiting commands is the
same. -/
structure Frame (touched : List Block) (s t : State) : Prop where
  blocks : ∀ b, b ∉ touched → b.same s t
  pending : t.pending = s.pending

/-- The blocks a command may touch. Every event may give the transmitter work (R142), which draws from
the CQ and the answer list. -/
def touchedBy : Instr → List Block
  | .powerOnReset _ | .restartReset _ =>
    [.tb, .ts, .slc, .pe, .groups, .age, .channels, .slots, .cq, .dli, .reset]
  | .resetAsserted => [.reset]
  | .receiveTelegram _ | .receiveTruncated _ | .receiveOverlong _ | .syncByte => [.cq, .dli]
  | .unknownKind | .interrogate | .tableRead | .restart | .modeRequestNeither => [.cq, .dli]
  | .diagReadPoint | .diagReadGroup | .diagReadModule | .diagReadSlot | .diagReadPart =>
    [.cq, .dli]
  | .transmitEnd | .idleIntervalExpiry => [.cq, .dli]
  | .control | .cancel | .deskSilenceExpiry | .pulseEnd _ | .provingDeadline _ =>
    [.channels, .slots, .cq, .dli]
  | .timeSet => [.tb, .cq, .dli]
  | .modeRequestOperate | .keyWithdrawal _ => [.ts, .slc, .cq, .dli]
  | .modeRequestMaintenance | .tableWrite | .keyPresented _ => [.ts, .cq, .dli]
  | .tableCommit | .commitSwap => [.ts, .slc, .pe, .groups, .channels, .cq, .dli]
  | .substitute | .release => [.pe, .groups, .age, .cq, .dli]
  | .traceSelectPoint | .traceSelectNone => [.pe, .cq, .dli]
  | .counterClear | .cycleStart | .inputPoll | .replyFirstByte _ => [.slc, .cq, .dli]
  | .drivePoll => [.slc, .channels, .cq, .dli]
  | .replyTimeout _ | .replySilence _ | .inputReply _ | .driveReply _ | .imageArrival =>
    [.slc, .pe, .groups, .age, .channels, .slots, .cq, .dli]

/-! ### Invariants -/

/-- Every table of one bank is in canonical form. -/
def Tables.canonical (t : Tables) : Prop :=
  Table.wf .empty t.moduleMap ∧ Table.wf .empty t.points ∧ Table.wf .empty t.groups ∧
    Table.wf .empty t.patterns ∧ Table.wf .empty t.commands

/-- Every numbered table of the part is in canonical form, so that equal contents are equal data. -/
structure State.Canonical (s : State) : Prop where
  active : s.ts.active.canonical
  shadow : s.ts.shadow.canonical
  modules : Table.wf .init s.slc.modules
  points : Table.wf .init s.pe.points
  groups : Table.wf .init s.groups
  channels : Table.wf none s.channels
  banks : ∀ m bank, s.channelBank m = some bank → Table.wf .init bank
  slots : Table.wf none s.slots

/-- The holding places hold no more than they can: the Change Queue (R122), the reply banks (R73), the
receive buffers (R136), the answer list with the place kept for a commit's deferred answer (R141), an
INDICATION (R131), and one unfinished hand-over of an arrival (R58). Both System Records lie within their
ranges (R149, R151). -/
structure State.WithinCapacity (s : State) : Prop where
  queue : s.cq.queue.length ≤ 256
  banks : s.slc.banks.length ≤ 2
  buffers : s.dli.buffers.length ≤ 2
  answers : s.dli.answers.length + (if s.ts.commitPending then 1 else 0) ≤ 2
  indication : ∀ h rs, s.dli.transmitter = some (.indication h rs) →
    rs.length ≤ 16 ∧ h.count = rs.length
  arrivals : (s.age.handOvers.filter HandOver.arrival).length ≤ 1
  activeSystem : s.ts.active.system.inRange
  shadowSystem : s.ts.shadow.system.inRange

/-- The five counters of a module lie in 0 to 65,535 and its two counts in 0 to 15 (R67). -/
def ModuleRec.withinLimits (r : ModuleRec) : Prop :=
  r.replyTimeouts ≤ 65535 ∧ r.crcErrors ≤ 65535 ∧ r.formatErrors ≤ 65535 ∧
    r.missedScans ≤ 65535 ∧ r.lossEvents ≤ 65535 ∧ r.good ≤ 15 ∧ r.miss ≤ 15

/-- The law of the counters: every counter of the part lies in 0 to 65,535 (R89). -/
structure State.CountersBounded (s : State) : Prop where
  modules : ∀ m, (s.moduleRec m).withinLimits
  cycleOverruns : s.slc.cycleOverruns ≤ 65535
  queueOverflows : s.cq.queueOverflows ≤ 65535
  deskCrcErrors : s.dli.crcErrors ≤ 65535
  deskRxOverruns : s.dli.rxOverruns ≤ 65535
  deskSilenceEvents : s.dli.silenceEvents ≤ 65535

/-- The law of the ACTIVE bank (R153), the law of the unconfigured part (R69), and what the mode, the
key and a pending commit say of each other (R154, R156, R158). -/
structure State.ModeSound (s : State) : Prop where
  pendingInMaintenance : s.ts.commitPending → s.ts.mode = .maintenance
  pendingValidated : s.ts.commitPending → s.ts.shadow.firstInvalid = none
  pendingWithoutSlots : s.ts.commitPending → ∀ k, s.slot k = none
  maintenanceWithKey : s.ts.mode = .maintenance → s.ts.key = .presented
  configuredValidated : s.ts.mode ≠ .unconfigured → s.ts.active.firstInvalid = none
  unconfiguredEmpty : s.ts.mode = .unconfigured → s.ts.active = .empty
  unconfiguredIdle : s.ts.mode = .unconfigured →
    s.slc.cycle = none ∧ s.slc.gridOrigin = none ∧ s.slc.nextDue = none
  unconfiguredUndriven : s.ts.mode = .unconfigured → ∀ m, s.channelBank m = none
  unconfiguredWithoutSlots : s.ts.mode = .unconfigured → ∀ k, s.slot k = none

/-- The fields of an occupied slot agree with its phase (the phase table of R104). -/
def Slot.sound (sl : Slot) : Prop :=
  match sl.phase with
  | .driving =>
    sl.mode = .pulse ∧ sl.proving = none ∧ sl.pulseEnd ≠ none ∧ sl.deadline = none ∧ sl.result = none
  | .confirming =>
    sl.mode ≠ .pulse ∧ sl.proving = none ∧ sl.pulseEnd = none ∧ sl.deadline = none ∧
      sl.result = none
  | .proving =>
    (sl.pulseEnd ≠ none → sl.mode = .pulse) ∧ sl.proving ≠ none ∧ sl.deadline ≠ none ∧
      sl.result = none
  | .finishing =>
    sl.mode = .pulse ∧ sl.proving ≠ none ∧ sl.pulseEnd ≠ none ∧ sl.deadline = none ∧
      sl.result = some .proved

/-- The law of command slots (R106): each output channel is owned by at most one occupied slot; and
every occupied slot has the fields of its phase (R104). -/
structure State.SlotsSound (s : State) : Prop where
  oneOwner : ∀ j k a b, s.slot j = some a → s.slot k = some b →
    a.mod = b.mod → a.channel = b.channel → j = k
  phases : ∀ k sl, s.slot k = some sl → sl.sound

/-- The law of deliverability (R6): a defined point that is not deliverable is UNKNOWN. -/
def State.DeliverabilityLaw (s : State) : Prop :=
  ∀ p, (s.ts.active.pointEntry p).isDefined →
    s.pointDeliverable (s.ts.active.pointEntry p) = false →
      ∃ cause, (s.pointRec p).evaluated = .unknown cause

/-- A measured time, where present, lies in 0 to 65,535 ms (R47). -/
def measured (t : Option Nat) : Prop := ∀ x, t = some x → x ≤ 65535

/-- The law of measured times (R47) and the law of the integration count (R45). -/
structure State.MeasurementsBounded (s : State) : Prop where
  times : ∀ p, measured (s.pointRec p).pendingTransfer ∧ measured (s.pointRec p).lastTransfer ∧
    measured (s.pointRec p).lastOnHalf ∧ measured (s.pointRec p).lastOffHalf
  counts : ∀ p, (s.ts.active.pointEntry p).cls = .flasher →
    (s.pointRec p).integration ≤ (s.ts.active.pointEntry p).target

/-! ### Ranges of the table entries -/

/-- A Module Map entry within its range (R148). -/
def ModuleEntry.inRange (e : ModuleEntry) : Prop := 1 ≤ e.address ∧ e.address ≤ 62

/-- A Point Table entry within its ranges (R1). -/
def PointEntry.inRange (e : PointEntry) : Prop :=
  e.pickFilter ≤ 10000 ∧ e.dropFilter ≤ 10000 ∧ e.transitLimit ≤ 10000 ∧ e.faultFilter ≤ 10000 ∧
    e.alarmLimit ≤ 10000 ∧ e.flashFilter ≤ 1000 ∧ 50 ≤ e.halfMin ∧ e.halfMin ≤ 5000 ∧
    50 ≤ e.halfMax ∧ e.halfMax ≤ 10000 ∧ 2 ≤ e.target ∧ e.target ≤ 32

/-- A Group Table entry within its ranges (R54). -/
def GroupEntry.inRange (e : GroupEntry) : Prop :=
  1 ≤ e.patternCount ∧ e.patternCount ≤ 16 ∧ e.settleTime ≤ 5000

/-- A Pattern Table entry within its ranges: aspect code 1 to 15 (R55). -/
def PatternEntry.inRange (e : PatternEntry) : Prop := 1 ≤ e.aspect.val

/-- A Command Table entry within its ranges (R103). -/
def CommandEntry.inRange (e : CommandEntry) : Prop :=
  50 ≤ e.pulseTime ∧ e.pulseTime ≤ 5000 ∧ 100 ≤ e.provingTime ∧ e.provingTime ≤ 60000

/-- The value of a range that lies nearest to `v` (R151). -/
def nearest (lo hi v : Nat) : Nat := if v < lo then lo else if hi < v then hi else v

/-- A numeric field as it is sent has two bytes (R168). -/
def PointEntry.sendable (e : PointEntry) : Prop :=
  e.pickFilter < 65536 ∧ e.dropFilter < 65536 ∧ e.transitLimit < 65536 ∧ e.faultFilter < 65536 ∧
    e.alarmLimit < 65536 ∧ e.flashFilter < 65536 ∧ e.halfMin < 65536 ∧ e.halfMax < 65536 ∧
    e.target < 65536

/-- A Point Table entry with every numeric field at the nearer limit of its range (R1, R151). -/
def PointEntry.limited (e : PointEntry) : PointEntry :=
  { e with
    pickFilter := nearest 0 10000 e.pickFilter
    dropFilter := nearest 0 10000 e.dropFilter
    transitLimit := nearest 0 10000 e.transitLimit
    faultFilter := nearest 0 10000 e.faultFilter
    alarmLimit := nearest 0 10000 e.alarmLimit
    flashFilter := nearest 0 1000 e.flashFilter
    halfMin := nearest 50 5000 e.halfMin
    halfMax := nearest 50 10000 e.halfMax
    target := nearest 2 32 e.target }

/-! ### Writing a table -/

/-- What a TABLE_WRITE of `count` entries from index `first` on makes of a bank, for the table whose entry `i`
is `entry · i` and whose entries are `size` bytes long and read by `parse`: nothing when one of them cannot
be read; otherwise each stands at its index, every other entry stays, and so does every other table, as
`kept` says (R150). -/
structure Tables.Writes {n : Nat} {α : Type} (b : Tables) (table : TableId) (size : Nat)
    (entry : Tables → Fin n → α) (parse : List Byte → Option (α × Bool)) (kept : Tables → Tables)
    (first count : Nat) (data : List Byte) : Prop where
  refused : first + count ≤ n →
    (b.write table first count data = none ↔
      ∃ k, k < count ∧ parse ((data.drop (k * size)).take size) = none)
  written : first + count ≤ n → ∀ after clamped, b.write table first count data = some (after, clamped) →
    ∀ (i : Fin n) (k : Nat), k < count → i.val = first + k →
      ∃ c, parse ((data.drop (k * size)).take size) = some (entry after i, c)
  others : first + count ≤ n → ∀ after clamped, b.write table first count data = some (after, clamped) →
    (∀ i : Fin n, ¬ (first ≤ i.val ∧ i.val < first + count) → entry after i = entry b i) ∧
      after = kept after
  clamped : first + count ≤ n → ∀ after clamped, b.write table first count data = some (after, clamped) →
    (clamped = true ↔
      ∃ k e, k < count ∧ parse ((data.drop (k * size)).take size) = some (e, true))

/-! ### Situations -/

/-- The part runs: the RESET input is high. -/
def State.Running (s : State) : Prop := s.resetHeld = false

/-- The DLI may dispatch the telegram `t`, behind which `rest` waits (R137). -/
structure State.Dispatches (s : State) (t : RxTelegram) (rest : List RxTelegram) : Prop where
  running : s.Running
  older : s.dli.buffers = t :: rest
  noAnswer : s.dli.answers = []
  noRestart : s.dli.restarting = false

/-- The DLI may dispatch a telegram of kind `k` with the body `body`, which passes the three checks of
R137. -/
structure State.Obeys (s : State) (k : DeskKind) (body : List Byte) (received : Time)
    (rest : List RxTelegram) : Prop where
  dispatches : s.Dispatches ⟨k.byte, body, received⟩ rest
  length : k.lengthAllowed body
  permitted : k.permitted s.ts.mode

/-- The state with the dispatched telegram gone from the receive buffers and `answers` in the answer
list, which was empty. -/
def State.answered (s : State) (rest : List RxTelegram) (answers : List Answer) : State :=
  { s with dli := { s.dli with buffers := rest, answers := answers } }

/-- The kind of telegram whose dispatch a command is. -/
def kindOf : Instr → Option DeskKind
  | .control => some .control
  | .cancel => some .cancel
  | .interrogate => some .interrogate
  | .timeSet => some .timeSet
  | .modeRequestOperate | .modeRequestMaintenance | .modeRequestNeither => some .modeRequest
  | .tableWrite => some .tableWrite
  | .tableRead => some .tableRead
  | .tableCommit => some .tableCommit
  | .substitute => some .substitute
  | .release => some .release
  | .traceSelectPoint | .traceSelectNone => some .traceSelect
  | .counterClear => some .counterClear
  | .restart => some .restart
  | .diagReadPoint | .diagReadGroup | .diagReadModule | .diagReadSlot | .diagReadPart =>
    some .diagRead
  | _ => none

/-- The bodies of its kind that a command's row takes: a MODE_REQUEST by the mode named, a TRACE_SELECT
by whether it names a point, a DIAG_READ by its selector. -/
def rowTakes : Instr → List Byte → Bool
  | .modeRequestOperate, body => namesOperate body
  | .modeRequestMaintenance, body => namesMaintenance body
  | .modeRequestNeither, body => namesNeither body
  | .traceSelectPoint, body => namesTracePoint body
  | .traceSelectNone, body => namesTraceNone body
  | .diagReadPoint, body => namesSelector 0 body
  | .diagReadGroup, body => namesSelector 1 body
  | .diagReadModule, body => namesSelector 2 body
  | .diagReadSlot, body => namesSelector 3 body
  | .diagReadPart, body => namesSelector 4 body
  | _, _ => true

/-- The line awaits, or receives, the reply to attempt `sc.sent` of the scan of module `sc.mod` in cycle
`c` (R75, R76). -/
structure State.Scanning (s : State) (c : Cycle) (sc : Scan) (line : LinePhase) : Prop where
  running : s.Running
  cycle : s.slc.cycle = some c
  scan : c.scan = some sc
  line : sc.line = line

/-- The `n` bytes of the reply in reception, each of 10 microseconds, can have ended with the line clock at
`clock` in the present millisecond, no silence between two of them longer than the reply window, and within the run of its bytes (R76). -/
structure State.ReplyEnds (s : State) (sc : Scan) (n : Nat) (clock : Micros) : Prop where
  onward : s.slc.lineClock ≤ clock
  least : ((10 * n : Nat) : Int) ≤ sc.since.microsTo { ms := s.now, micros := clock }
  most : sc.since.microsTo { ms := s.now, micros := clock } ≤
    ((10 * n + (n - 1) * s.system.replyWindow : Nat) : Int)
  running : sc.since.microsTo { ms := s.now, micros := clock } ≤ ((10 + sc.more.toNat : Nat) : Int)

/-- What the end of a hold leaves of the SLC between `s` and `t` (R72, R157): everything but the hold while
a used module, or a scan, is left in the cycle, and in every case the records, the images and the grid. -/
structure State.HoldEnds (s t : State) : Prop where
  idle : s.slc.cycle = none → t.slc = s.slc
  unheld : ∀ c, s.slc.cycle = some c → c.held = false → t.slc = s.slc
  goesOn : ∀ c, s.slc.cycle = some c → (∃ m : ModuleNo, c.next ≤ m.val ∧ s.useOf m ≠ .unused) ∨
    c.scan ≠ none → t.slc = { s.slc with cycle := some { c with held := false } }
  kept : t.slc.modules = s.slc.modules ∧ t.slc.banks = s.slc.banks ∧
    t.slc.gridOrigin = s.slc.gridOrigin ∧ t.slc.lineClock = s.slc.lineClock

/-- The AGE works at the speed of the events: no hand-over is unfinished, and each is finished within the
event that makes it, as it is after either reset (log entry 11). -/
structure State.AgeInStep (s : State) : Prop where
  finished : s.age.handOvers = []
  pace : s.age.pace = []

/-- The lowest used module with a logical number of at least `n` is `m` (R70). -/
def State.NextUsed (s : State) (n : Nat) (m : ModuleNo) : Prop :=
  n ≤ m.val ∧ s.useOf m ≠ .unused ∧ ∀ k : ModuleNo, n ≤ k.val → k < m → s.useOf k = .unused

/-- What each block holds right after a reset at which the MAINT key input stands at `key` (R67, R91,
R104, R122, R147, R148, R160; R4, R56). -/
structure State.JustReset (key : KeyLevel) (t : State) : Prop where
  time : t.tb = { elapsed := 0, offset := 0 }
  tables : t.ts = { active := .empty, shadow := .empty, mode := .unconfigured,
                    commitPending := false, key := key }
  modules : ∀ m, t.moduleRec m =
    { state := .unused, good := 0, miss := 0, wetting := false, image := none, readback := none,
      replyTimeouts := 0, crcErrors := 0, formatErrors := 0, missedScans := 0, lossEvents := 0 }
  line : t.slc = { modules := t.slc.modules, banks := [], gridOrigin := none, nextDue := none,
                   lateWaiting := false, cycle := none, cycleOverruns := 0, lineClock := 0 }
  points : ∀ p, t.pointRec p =
    { evaluated := .unknown .init, candidate := none, openSince := none, pendingTransfer := none,
      lastTransfer := none, slowTransfer := false, filteredLevel := none, levelCandidate := none,
      lastEdge := none, lastOnHalf := none, lastOffHalf := none, integration := 0,
      substitute := none, stale := false }
  trace : t.pe.tracedPoint = none ∧ t.pe.lastOffered = none
  groups : ∀ g, t.groupRec g = { code := .unknown .init, noMatchStart := none }
  handOvers : t.age.handOvers = []
  channels : ∀ m ch, t.channel m ch = none
  slots : ∀ k, t.slot k = none
  queue : t.cq = { queue := [], cursor := none, traceGap := false, queueOverflows := 0 }
  link : t.dli = { receiver := .hunting, buffers := [], answers := [], restarting := false,
                   transmitter := none, lastSendEnd := 0, silenceStart := 0, linkSilent := false,
                   crcErrors := 0, rxOverruns := 0, silenceEvents := 0, expiryOpen := false }
  running : t.Running

end Sys2Proof.Machine
end

