-- ==== Sys2Proof/Certificates/Slice0/Obligations.lean ====
section
/-! DEFINITION. The statements put to the provers. -/

open Sys2Proof Sys2Proof.Machine

/-! ### The machine -/

/-- A step takes the command at the front of the queue and executes it with the rest of the queue. -/
def Obligations.StepExecutesTheFrontCommand : Prop :=
  ∀ (s : State) (c : Instr) (rest : List Instr), s.pending = c :: rest →
    step s = exec c { s with pending := rest }

/-- The model's choice (log entry 3): on an empty queue the part finishes what it has left unfinished, the
AGE's hand-overs first (R58, log entry 11), then the moment of a desk-silence expiry (R146, log entry 28);
else it takes the event it starts by itself; and where there is none the elapsed time rises by 1 (R160),
the line clock goes on from the start of that millisecond (R76), and nothing else changes. It stands still
while the RESET input is held low (log entry 7). -/
def Obligations.EmptyQueueLetsThePartRun : Prop :=
  ∀ s : State, s.pending = [] →
    (s.Running → s.age.handOvers ≠ [] → step s = .next s.ageFinish.transmitNext) ∧
    (s.Running → s.age.handOvers = [] → s.dli.expiryOpen = true → step s =
      .next (State.transmitNext { s with dli := { s.dli with expiryOpen := false } })) ∧
    (s.age.handOvers = [] → s.dli.expiryOpen = false →
      (∀ c, s.selfStarted = some c → step s = exec c s) ∧
      (s.selfStarted = none → s.Running →
        step s = .next { s with
          tb := { s.tb with elapsed := s.tb.elapsed + 1 }
          slc := { s.slc with lineClock := 0 } })) ∧
    (s.resetHeld = true → step s = .next s)

/-- Every command answers a next state in every state: none faults and none is refused. A command whose
event cannot take place answers next too, which is the model's choice (log entry 2). Every command leaves
every block alone that `touchedBy` does not list for it, and the queue of waiting commands. -/
def Obligations.EveryCommandAnswersNextWithinItsBlocks : Prop :=
  ∀ (c : Instr) (s : State), ∃ t, exec c s = .next t ∧ Frame (touchedBy c) s t

/-- R167: RESET low holds the part in reset. What the part holds meanwhile is the model's choice (log
entry 7): its state stands still, and no command but a reset changes it. -/
def Obligations.ResetHeldLowStopsThePart : Prop :=
  ∀ s : State, exec .resetAsserted s = .next { s with resetHeld := true } ∧
    (s.resetHeld = true → ∀ c, c ≠ .resetAsserted → (∀ key, c ≠ .powerOnReset key) →
      exec c s = .next s)

/-- Both resets bring every block to its state after reset, the sensed key level to the level of the
input; a RESTART's reset is taken at the end of its ACCEPTED answer (R140, R167). -/
def Obligations.ResetsReturnEveryBlock : Prop :=
  ∀ (s : State) (key : KeyLevel),
    (∃ t, exec (.powerOnReset key) s = .next t ∧ State.JustReset key t ∧ t.pending = s.pending) ∧
    (∀ payload, s.Running → s.dli.restarting = true →
      s.dli.transmitter = some (.answer ⟨0x0E, .accepted, payload⟩) →
      ∃ t, exec (.restartReset key) s = .next t ∧ State.JustReset key t ∧ t.pending = s.pending)

/-! ### Reception and dispatch -/

/-- What ends the assembly of a telegram, and what begins it. A valid telegram restarts the silence timer,
clears LINK_SILENT, ends the moment of an expiry (R146; the model's own field, log entry 28), and takes a
free receive buffer or, with both full, is discarded with DESK_RX_OVERRUNS raised (R136). A CRC failure
raises DESK_CRC_ERRORS, a truncated or overlong telegram raises no counter; the bytes are discarded and the
receiver hunts. A sync byte starts assembly while hunting and is data while assembling (R135). -/
def Obligations.ReceptionBuffersDiscardsOrHunts : Prop :=
  ∀ s : State, s.Running →
    (s.dli.receiver = .assembling →
      (∀ (kind : Byte) (body : List Byte), body.length ≤ 256 →
        exec (.receiveTelegram (telegram kind body).tail) s = .next (State.transmitNext { s with
          dli := { s.dli with
            receiver := .hunting
            silenceStart := s.now
            linkSilent := false
            expiryOpen := false
            buffers :=
              if s.dli.buffers.length < 2 then s.dli.buffers ++ [⟨kind, body, s.now⟩]
              else s.dli.buffers
            rxOverruns :=
              if s.dli.buffers.length < 2 then s.dli.rxOverruns else bump s.dli.rxOverruns } })) ∧
      (∀ bytes, telegramShape bytes = true → crcCorrect bytes = false →
        exec (.receiveTelegram bytes) s = .next (State.transmitNext { s with
          dli := { s.dli with receiver := .hunting, crcErrors := bump s.dli.crcErrors } })) ∧
      (∀ gap, 5000 < gap → exec (.receiveTruncated gap) s = .next (State.transmitNext { s with
        dli := { s.dli with receiver := .hunting } })) ∧
      (∀ length : BitVec 16, 256 < length.toNat →
        exec (.receiveOverlong length) s = .next (State.transmitNext { s with
          dli := { s.dli with receiver := .hunting } })) ∧
      exec .syncByte s = .next s) ∧
    (s.dli.receiver = .hunting →
      exec .syncByte s = .next (State.transmitNext { s with
        dli := { s.dli with receiver := .assembling } }))

/-- The three checks of a dispatch in their order: an unknown kind, a body length the kind does not
allow, a kind not permitted in the mode; each frees the buffer, answers, and does nothing else
(R137). The body lengths and the code of each kind are those of the table of R170, a TABLE_WRITE those of 1
to 8 entries of the table that it names and 3 to 256 when it names none of the six; the permissions in
UNCONFIGURED, OPERATE and MAINTENANCE are those of the table of R138. -/
def Obligations.DispatchChecksAnswerInOrder : Prop :=
  (∀ (k : DeskKind) (body : List Byte),
    let row (code : Byte) (allowed : Prop) : Prop :=
      k.byte = code ∧ (k.lengthAllowed body = true ↔ allowed)
    match k with
    | .control => row 0x01 (body.length = 1)
    | .cancel => row 0x02 (body.length = 1)
    | .interrogate => row 0x03 (body.length = 0)
    | .timeSet => row 0x04 (body.length = 4)
    | .modeRequest => row 0x05 (body.length = 1)
    | .tableWrite =>
      let table := (body.headD 0).toNat
      row 0x06
        ((∃ size n, [3, 30, 21, 8, 15, 18][table]? = some size ∧ 1 ≤ n ∧ n ≤ 8 ∧
            body.length = 3 + n * size) ∨
          (6 ≤ table ∧ 3 ≤ body.length ∧ body.length ≤ 256))
    | .tableRead => row 0x07 (body.length = 4)
    | .tableCommit => row 0x08 (body.length = 0)
    | .substitute => row 0x09 (body.length = 3)
    | .release => row 0x0A (body.length = 2)
    | .diagRead => row 0x0B (body.length = 3)
    | .traceSelect => row 0x0C (body.length = 2)
    | .counterClear => row 0x0D (body.length = 0)
    | .restart => row 0x0E (body.length = 0)) ∧
  (∀ k : DeskKind,
    [Mode.unconfigured, .operate, .maintenance].map k.permitted =
      match k with
      | .control => [true, true, true]
      | .cancel => [true, true, true]
      | .interrogate => [true, true, true]
      | .timeSet => [true, true, true]
      | .diagRead => [true, true, true]
      | .tableRead => [true, true, true]
      | .modeRequest => [true, true, true]
      | .tableWrite => [true, false, true]
      | .tableCommit => [true, false, true]
      | .substitute => [true, false, true]
      | .release => [true, false, true]
      | .traceSelect => [true, false, true]
      | .counterClear => [true, false, true]
      | .restart => [true, false, true]) ∧
  ∀ (s : State) (t : RxTelegram) (rest : List RxTelegram), s.Dispatches t rest →
    ((∀ k : DeskKind, t.kind ≠ k.byte) →
      exec .unknownKind s =
        .next (s.answered rest [⟨t.kind, .unknownKind, []⟩]).transmitNext) ∧
    (∀ c k, kindOf c = some k → t.kind = k.byte → k.lengthAllowed t.body = false →
      exec c s = .next (s.answered rest [⟨t.kind, .badLength, []⟩]).transmitNext) ∧
    (∀ c k, kindOf c = some k → t.kind = k.byte → k.lengthAllowed t.body = true →
      rowTakes c t.body = true → k.permitted s.ts.mode = false →
      exec c s = .next (s.answered rest [⟨t.kind, .notPermitted, []⟩]).transmitNext)

/-! ### The command path -/

/-- An accepted CONTROL occupies the lowest-numbered FREE slot, requests of the ODU the code of its
mode (ON for PULSE and SET, OFF for CLEAR, FLASH for FLASH), sets its timers, and issues no result (R106). -/
def Obligations.AcceptedControlOccupiesLowestFreeSlot : Prop :=
  ∀ (s : State) (received : Time) (rest : List RxTelegram) (c : ControlNo) (k : SlotNo)
    (ch : Channel), s.Obeys .control (u8 c) received rest →
    let e := s.ts.active.commandEntry c
    s.ts.mode ≠ .unconfigured → s.ts.commitPending = false → e.defined = true →
    (s.moduleRec e.mod).state = .active →
    s.channel e.mod e.channel = some ch → ch.isFaulted = false →
    (∀ j sl, s.slot j = some sl → ¬ (sl.mod = e.mod ∧ sl.channel = e.channel)) →
    s.slot k = none → (∀ j, j < k → s.slot j ≠ none) →
    (∀ p, e.proving = some p → (s.pointRec p).evaluated ≠ .known e.expected) →
    let code : DriveCode := match e.mode with
      | .pulse | .set => .on
      | .clear => .off
      | .flash => .flash
    ∃ w, exec .control s = .next w.transmitNext ∧
      w.slot k = some
        { phase :=
            if e.proving ≠ none then .proving
            else if e.mode = .pulse then .driving else .confirming
          control := c, mod := e.mod, channel := e.channel, mode := e.mode
          proving := e.proving.map fun p => (p, e.expected)
          endOnProof := e.endOnProof
          acceptedAt := s.now
          pulseEnd := if e.mode = .pulse then some (s.now + BitVec.ofNat 32 e.pulseTime) else none
          deadline := e.proving.map fun _ => s.now + BitVec.ofNat 32 e.provingTime
          result := none } ∧
      (∀ j, j ≠ k → w.slot j = s.slot j) ∧
      w.channel e.mod e.channel = some
        (if ch.drive = code then ch
         else { ch with drive := code, condition := .normal none }) ∧
      (∀ m j, ¬ (m = e.mod ∧ j = e.channel) → w.channel m j = s.channel m j) ∧
      w.dli = { s.dli with buffers := rest } ∧
      Frame [.channels, .slots, .dli] s w

/-- The first failing check of R105, in its order, decides the result of a CONTROL that is not
accepted; the result is issued at the dispatch time and nothing else happens. -/
def Obligations.FirstFailingCheckDecidesControl : Prop :=
  ∀ (s : State) (received : Time) (rest : List RxTelegram) (c : ControlNo)
    (passed : Bool) (result : CommandResult), s.Obeys .control (u8 c) received rest →
    let e := s.ts.active.commandEntry c
    List.find? (fun check : Bool × CommandResult => !check.1)
      [(decide (s.ts.mode ≠ .unconfigured), .rejectedNotConfigured),
       (!s.ts.commitPending, .rejectedCommitPending),
       (e.defined, .rejectedUndefined),
       (decide ((s.moduleRec e.mod).state = .active), .rejectedModule),
       (!((s.channel e.mod e.channel).any Channel.isFaulted), .rejectedChannelFault),
       ((List.finRange 16).all fun k =>
          (s.slot k).all fun sl => !(sl.mod = e.mod && sl.channel = e.channel), .rejectedBusy),
       ((List.finRange 16).any fun k => (s.slot k).isNone, .rejectedNoSlot),
       (e.proving.all fun p => (s.pointRec p).evaluated ≠ .known e.expected, .already)] =
      some (passed, result) →
    exec .control s =
      .next ((s.answered rest []).hand s.now (.commandResult c result)).transmitNext

/-- CANCEL ends the slot that holds the control, with CANCELLED from an open phase and the code OFF for
PULSE and FLASH, and is answered ACCEPTED; with no such slot it is answered NOT_ACTIVE (R114). -/
def Obligations.CancelEndsTheSlotOfItsControl : Prop :=
  ∀ (s : State) (received : Time) (rest : List RxTelegram) (c : ControlNo),
    s.Obeys .cancel (u8 c) received rest →
    ((∀ k sl, s.slot k = some sl → sl.control ≠ c) →
      exec .cancel s = .next (s.answered rest [⟨0x02, .notActive, []⟩]).transmitNext) ∧
    (∀ k sl, s.slot k = some sl → sl.control = c →
      (∀ j a, j < k → s.slot j = some a → a.control ≠ c) →
      let q :=
        if sl.phase = .finishing then s.answered rest []
        else (s.answered rest []).hand s.now (.commandResult c .cancelled)
      let d := if sl.mode = .pulse ∨ sl.mode = .flash then q.setCode sl.mod sl.channel .off else q
      exec .cancel s =
        .next ((d.setSlot k none).answer 0x02 .accepted (u8 c)).transmitNext)

/-- A pulse end that has fallen due sets the code OFF; DRIVING ends EXECUTED with the time of the pulse
end, FINISHING frees, PROVING goes on without a pulse (R108). -/
def Obligations.PulseEndActsByPhase : Prop :=
  ∀ (s : State) (k : SlotNo) (sl : Slot) (due : Time), s.Running → s.slot k = some sl →
    sl.pulseEnd = some due → reached due s.now = true →
    let off := s.setCode sl.mod sl.channel .off
    (sl.phase = .driving → exec (.pulseEnd k) s =
      .next ((off.hand due (.commandResult sl.control .executed)).setSlot k none).transmitNext) ∧
    (sl.phase = .finishing → exec (.pulseEnd k) s = .next (off.setSlot k none).transmitNext) ∧
    (sl.phase = .proving → exec (.pulseEnd k) s =
      .next (off.setSlot k (some { sl with pulseEnd := none })).transmitNext)

/-- A proving deadline that has fallen due ends the slot UNPROVABLE on an UNKNOWN proving point and
NOT_PROVED on any other state, with the time of the deadline, and OFF if the pulse still runs
(R110). -/
def Obligations.ProvingDeadlineEndsTheSlot : Prop :=
  ∀ (s : State) (k : SlotNo) (sl : Slot) (p : PointNo) (x : StateValue) (due : Time),
    s.Running → s.slot k = some sl → sl.phase = .proving → sl.proving = some (p, x) →
    sl.deadline = some due → reached due s.now = true →
    ∀ result, result = (match (s.pointRec p).evaluated with
      | .unknown _ => CommandResult.unprovable
      | .known _ => CommandResult.notProved) →
    let q := s.hand due (.commandResult sl.control result)
    let d := if sl.pulseEnd = none then q else q.setCode sl.mod sl.channel .off
    exec (.provingDeadline k) s = .next (d.setSlot k none).transmitNext

/-- A notice of a point's new evaluated state proves exactly the PROVING slots that expect it: such a
slot frees when no pulse runs or end-on-proof is set and otherwise becomes FINISHING; every other slot
stays. Each proved slot issues PROVED at the present time, in slot order, and with end-on-proof while its
pulse runs requests OFF of its channel; every other channel stays. A notice of UNKNOWN changes nothing
(R109). -/
def Obligations.ProofActsOnEverySlot : Prop :=
  ∀ (s : State) (p : PointNo) (new : PointState),
    (∀ k, s.slot k = none → (s.csuNotice p new).slot k = none) ∧
    (∀ k sl, s.slot k = some sl →
      ¬ (sl.phase = .proving ∧ ∃ x, sl.proving = some (p, x) ∧ new = .known x) →
      (s.csuNotice p new).slot k = some sl) ∧
    (∀ k sl x, s.slot k = some sl → sl.phase = .proving → sl.proving = some (p, x) →
      new = .known x →
      (s.csuNotice p new).slot k =
        if sl.pulseEnd = none ∨ sl.endOnProof = true then none
        else some { sl with phase := .finishing, deadline := none, result := some .proved }) ∧
    (∀ x, new = .known x → s.cq.queue.length ≤ 240 → (s.csuNotice p new).cq = { s.cq with
      queue := s.cq.queue ++ (List.finRange 16).filterMap fun k => (s.slot k).bind fun sl =>
        if sl.phase = .proving ∧ sl.proving = some (p, x) then
          some { refresh := false, deskTime := s.now + s.tb.offset,
                 content := .commandResult sl.control .proved }
        else none }) ∧
    (∀ m j ch, s.channel m j = some ch →
      let ends : Prop := ∃ k sl x, s.slot k = some sl ∧ sl.phase = .proving ∧
        sl.proving = some (p, x) ∧ new = .known x ∧ sl.pulseEnd ≠ none ∧ sl.endOnProof = true ∧
        sl.mod = m ∧ sl.channel = j
      (ends → ch.isFaulted = false → ch.drive ≠ .off →
        (s.csuNotice p new).channel m j =
          some { ch with drive := .off, condition := .normal none }) ∧
      (¬ ends ∨ ch.isFaulted = true ∨ ch.drive = .off →
        (s.csuNotice p new).channel m j = some ch)) ∧
    Frame [.channels, .slots, .cq] s (s.csuNotice p new) ∧
    (∀ cause, new = .unknown cause → s.csuNotice p new = s)

/-- A desk-silence expiry sets LINK_SILENT, raises its counter and ends every slot. Each slot that has not
yet issued its result issues CANCELLED_LINK with the time of the expiry, in slot order; the channel of a
PULSE whose pulse ran goes OFF, every channel that carries FLASH goes OFF, and every other code stays (R115,
R146). That no header is formed before its moment is over is the model's own field (log entry 28). -/
def Obligations.DeskSilenceEndsSlotsAndFlashing : Prop :=
  ∀ s : State, s.Running → s.ts.mode ≠ .unconfigured → s.system.silenceTime ≠ 0 →
    s.dli.linkSilent = false → s.system.silenceTime ≤ interval s.dli.silenceStart s.now →
    ∃ w, exec .deskSilenceExpiry s = .next w.transmitNext ∧
      w.dli = { s.dli with
        linkSilent := true, silenceEvents := bump s.dli.silenceEvents, expiryOpen := true } ∧
      (∀ k, w.slot k = none) ∧
      (s.cq.queue.length ≤ 240 → w.cq = { s.cq with
        queue := s.cq.queue ++ (List.finRange 16).filterMap fun k => (s.slot k).bind fun sl =>
          if sl.phase ≠ .finishing then
            some { refresh := false
                   deskTime := s.dli.silenceStart + BitVec.ofNat 32 s.system.silenceTime +
                     s.tb.offset
                   content := .commandResult sl.control .cancelledLink }
          else none }) ∧
      (∀ m j, s.channel m j = none → w.channel m j = none) ∧
      (∀ m j ch, s.channel m j = some ch →
        let pulses : Prop := ∃ k sl, s.slot k = some sl ∧ sl.mode = .pulse ∧ sl.pulseEnd ≠ none ∧
          sl.mod = m ∧ sl.channel = j
        (pulses → ch.isFaulted = false → ch.drive ≠ .off →
          w.channel m j = some { ch with drive := .off, condition := .normal none }) ∧
        (¬ pulses ∨ ch.isFaulted = true ∨ ch.drive = .off →
          w.channel m j = some (if ch.drive = .flash then { ch with drive := .off } else ch))) ∧
      Frame [.channels, .slots, .cq, .dli] s w

/-! ### Management telegrams -/

/-- INTERROGATE starts the refresh at the first point (R128); TIME_SET makes the desk time of its
reception time T (R161); RESTART is answered ACCEPTED and is then in progress (R140). -/
def Obligations.InterrogateTimeSetAndRestart : Prop :=
  ∀ (s : State) (received : Time) (rest : List RxTelegram),
    (s.Obeys .interrogate [] received rest →
      exec .interrogate s = .next (State.transmitNext
        { s.answered rest [⟨0x03, .accepted, []⟩] with
          cq := { s.cq with cursor := some (.points 0) } })) ∧
    (∀ T : Time, s.Obeys .timeSet (u32 T) received rest →
      exec .timeSet s = .next (State.transmitNext
        { s.answered rest [⟨0x04, .accepted, []⟩] with
          tb := { s.tb with offset := T - received } })) ∧
    (s.Obeys .restart [] received rest →
      exec .restart s = .next (State.transmitNext { s with
        dli := { s.dli with
          buffers := rest, answers := [⟨0x0E, .accepted, []⟩], restarting := true } }))

/-- COUNTER_CLEAR sets every counter to 0 and leaves every other piece of state (R90). -/
def Obligations.CounterClearZeroesEveryCounter : Prop :=
  ∀ (s : State) (received : Time) (rest : List RxTelegram),
    s.Obeys .counterClear [] received rest →
    ∃ w, exec .counterClear s = .next w.transmitNext ∧
      (∀ m, w.moduleRec m = { s.moduleRec m with
        replyTimeouts := 0, crcErrors := 0, formatErrors := 0, missedScans := 0,
        lossEvents := 0 }) ∧
      w.slc = { s.slc with modules := w.slc.modules, cycleOverruns := 0 } ∧
      w.cq = { s.cq with queueOverflows := 0 } ∧
      w.dli = { s.dli with
        buffers := rest, answers := [⟨0x0D, .accepted, []⟩], crcErrors := 0, rxOverruns := 0,
        silenceEvents := 0 } ∧
      Frame [.slc, .cq, .dli] s w

/-- MODE_REQUEST by the mode named, the present mode and the key; a change to OPERATE withdraws a pending
commit, whose WITHDRAWN answer joins first, and ends a held cycle start, whose cycle goes on under the old
bank (R156, R157, R72). -/
def Obligations.ModeRequestFollowsItsTable : Prop :=
  ∀ (s : State) (received : Time) (rest : List RxTelegram),
    let refused := s.answered rest [⟨0x05, .notPermitted, []⟩]
    (s.Obeys .modeRequest [1] received rest →
      (s.ts.mode = .unconfigured → exec .modeRequestOperate s = .next refused.transmitNext) ∧
      (s.ts.mode = .operate → exec .modeRequestOperate s =
        .next (s.answered rest [⟨0x05, .accepted, [1]⟩]).transmitNext) ∧
      (s.ts.mode = .maintenance → s.ts.commitPending = false →
        exec .modeRequestOperate s = .next (State.transmitNext
          { s.answered rest [⟨0x05, .accepted, [1]⟩] with
            ts := { s.ts with mode := .operate } })) ∧
      (s.ts.mode = .maintenance → s.ts.commitPending = true →
        ∃ w, exec .modeRequestOperate s = .next w.transmitNext ∧
          w.ts = { s.ts with mode := .operate, commitPending := false } ∧
          w.dli = { s.dli with
            buffers := rest
            answers := [⟨0x08, .withdrawn, []⟩, ⟨0x05, .accepted, [1]⟩] } ∧
          s.HoldEnds w ∧ Frame [.ts, .slc, .dli] s w)) ∧
    (s.Obeys .modeRequest [2] received rest →
      (s.ts.mode = .unconfigured →
        exec .modeRequestMaintenance s = .next refused.transmitNext) ∧
      (s.ts.mode = .operate → s.ts.key = .withdrawn →
        exec .modeRequestMaintenance s = .next refused.transmitNext) ∧
      (s.ts.mode ≠ .unconfigured → s.ts.key = .presented →
        exec .modeRequestMaintenance s = .next (State.transmitNext
          { s.answered rest [⟨0x05, .accepted, [2]⟩] with
            ts := { s.ts with mode := .maintenance } }))) ∧
    (∀ n : Byte, n ≠ 1 → n ≠ 2 → s.Obeys .modeRequest [n] received rest →
      exec .modeRequestNeither s = .next refused.transmitNext)

/-- A withdrawal of the key returns MAINTENANCE to OPERATE and withdraws a pending commit, which ends a held
cycle start; presenting the key changes no mode; the sensed level changes only when the contact has stood
for 20 ms (R157, R158, R167, R72). -/
def Obligations.KeyChangesActByMode : Prop :=
  ∀ (s : State) (stood : Nat), s.Running →
    (20 ≤ stood → s.ts.key = .presented →
      (s.ts.mode ≠ .maintenance → exec (.keyWithdrawal stood) s =
        .next (State.transmitNext { s with ts := { s.ts with key := .withdrawn } })) ∧
      (s.ts.mode = .maintenance → s.ts.commitPending = false → exec (.keyWithdrawal stood) s =
        .next (State.transmitNext { s with
          ts := { s.ts with mode := .operate, key := .withdrawn } })) ∧
      (s.ts.mode = .maintenance → s.ts.commitPending = true →
        ∃ w, exec (.keyWithdrawal stood) s = .next w.transmitNext ∧
          w.ts = { s.ts with mode := .operate, commitPending := false, key := .withdrawn } ∧
          w.dli = { s.dli with answers := s.dli.answers ++ [⟨0x08, .withdrawn, []⟩] } ∧
          s.HoldEnds w ∧ Frame [.ts, .slc, .dli] s w)) ∧
    (20 ≤ stood → s.ts.key = .withdrawn → exec (.keyPresented stood) s =
      .next (State.transmitNext { s with ts := { s.ts with key := .presented } })) ∧
    (stood < 20 → exec (.keyWithdrawal stood) s = .next s ∧ exec (.keyPresented stood) s = .next s)

/-! ### Tables and the commit -/

/-- TABLE_WRITE: BUSY while a commit is pending, then OUT_OF_RANGE for a table that is none of the six,
an index beyond the table or an enumerated field outside its list, with nothing written; otherwise every
entry is written into SHADOW and the answer says whether a field was clamped (R150). In each of the six
tables the entries are those of the telegram, cut by the size of the table, at the indexes named; every
other entry and table stays; and one entry that cannot be read refuses all of them. That the entry count
of the answer takes one byte is log entry 30. -/
def Obligations.TableWriteChecksThenWritesShadow : Prop :=
  ∀ (s : State) (received : Time) (rest : List RxTelegram),
    let reply (status : AnswerStatus) (payload : List Byte) :=
      s.answered rest [⟨0x06, status, payload⟩]
    (∀ (named : Byte) (body : List Byte), (∀ table : TableId, named.toNat ≠ table.code) →
      s.Obeys .tableWrite (named :: body) received rest →
      exec .tableWrite s =
        .next (reply (if s.ts.commitPending then .busy else .outOfRange) []).transmitNext) ∧
    ∀ (table : TableId) (first : Nat) (data : List Byte), first < 65536 →
    s.Obeys .tableWrite (u8 table.code ++ u16 first ++ data) received rest →
    let count := data.length / table.entrySize
    (s.ts.commitPending = true → exec .tableWrite s = .next (reply .busy []).transmitNext) ∧
    (s.ts.commitPending = false → table.entries < first + count →
      exec .tableWrite s = .next (reply .outOfRange []).transmitNext) ∧
    (s.ts.commitPending = false → first + count ≤ table.entries →
      s.ts.shadow.write table first count data = none →
      exec .tableWrite s = .next (reply .outOfRange []).transmitNext) ∧
    (∀ shadow clamped, s.ts.commitPending = false → first + count ≤ table.entries →
      s.ts.shadow.write table first count data = some (shadow, clamped) →
      exec .tableWrite s = .next (State.transmitNext
        { reply (if clamped then .clamped else .accepted)
            (u8 table.code ++ u16 first ++ u8 count) with
          ts := { s.ts with shadow := shadow } })) ∧
    let tables : List TableId := [.moduleMap, .points, .groups, .patterns, .commands, .system]
    tables.map TableId.code = [0, 1, 2, 3, 4, 5] ∧
    tables.map TableId.entries = [32, 1024, 128, 512, 256, 1] ∧
    tables.map TableId.entrySize = [3, 30, 21, 8, 15, 18] ∧
    ∀ (b : Tables) (at_ k : Nat) (bytes : List Byte),
      b.Writes .moduleMap 3 Tables.moduleEntry ModuleEntry.parse
        (fun after => { b with moduleMap := after.moduleMap }) at_ k bytes ∧
      b.Writes .points 30 Tables.pointEntry PointEntry.parse
        (fun after => { b with points := after.points }) at_ k bytes ∧
      b.Writes .groups 21 Tables.groupEntry GroupEntry.parse
        (fun after => { b with groups := after.groups }) at_ k bytes ∧
      b.Writes .patterns 8 Tables.patternEntry PatternEntry.parse
        (fun after => { b with patterns := after.patterns }) at_ k bytes ∧
      b.Writes .commands 15 Tables.commandEntry CommandEntry.parse
        (fun after => { b with commands := after.commands }) at_ k bytes ∧
      b.Writes .system 18 (fun b (_ : Fin 1) => b.system) SystemRecord.parse
        (fun after => { b with system := after.system }) at_ k bytes

/-- One to eight Point Table entries are written whole to consecutive indexes of SHADOW, which then reads
them back, each numeric field outside its range at the nearer limit; the answer is CLAMPED when any field
was outside and ACCEPTED otherwise; every other entry, table and bank stays (R150, R151). That the entry
count of the answer takes one byte is log entry 30. -/
def Obligations.WrittenPointEntriesReadBack : Prop :=
  ∀ (s : State) (received : Time) (rest : List RxTelegram) (first : Nat) (es : List PointEntry),
    1 ≤ es.length → es.length ≤ 8 → first + es.length ≤ 1024 →
    (∀ e, e ∈ es → e.sendable) → s.ts.commitPending = false →
    s.Obeys .tableWrite ([1] ++ u16 first ++ (es.map PointEntry.bytes).flatten) received rest →
    ∃ w status, exec .tableWrite s = .next w.transmitNext ∧
      (∀ (i : Nat) (h : i < 1024), first ≤ i → i < first + es.length →
        (es.map PointEntry.limited)[i - first]? = some (w.ts.shadow.pointEntry ⟨i, h⟩)) ∧
      ((∀ e, e ∈ es → e.inRange) →
        status = .accepted ∧ es.map PointEntry.limited = es) ∧
      ((∃ e, e ∈ es ∧ ¬ e.inRange) → status = .clamped) ∧
      (∀ p : PointNo, ¬ (first ≤ p.val ∧ p.val < first + es.length) →
        w.ts.shadow.pointEntry p = s.ts.shadow.pointEntry p) ∧
      w.ts = { s.ts with shadow := { s.ts.shadow with points := w.ts.shadow.points } } ∧
      w.dli = { s.dli with
        buffers := rest
        answers := [⟨0x06, status, [1] ++ u16 first ++ u8 es.length⟩] } ∧
      Frame [.ts, .dli] s w

/-- TABLE_READ answers the bank, table, index and the whole entry as it stands, of ACTIVE as bank 0 and
SHADOW as bank 1, or OUT_OF_RANGE for a bank, table or index the TS does not hold; it changes nothing
(R152). -/
def Obligations.TableReadAnswersTheEntry : Prop :=
  ∀ (s : State) (received : Time) (rest : List RxTelegram) (bank table : Byte) (index : Nat),
    index < 65536 → s.Obeys .tableRead ([bank, table] ++ u16 index) received rest →
    let answers (entry : List Byte) : Prop := exec .tableRead s = .next (s.answered rest
      [⟨0x07, .accepted, [bank, table] ++ u16 index ++ entry⟩]).transmitNext
    (∀ b : Tables, (bank = 0 ∧ b = s.ts.active) ∨ (bank = 1 ∧ b = s.ts.shadow) →
      (table = 0 → ∀ m : ModuleNo, m.val = index → answers (b.moduleEntry m).bytes) ∧
      (table = 1 → ∀ p : PointNo, p.val = index → answers (b.pointEntry p).bytes) ∧
      (table = 2 → ∀ g : GroupNo, g.val = index → answers (b.groupEntry g).bytes) ∧
      (table = 3 → ∀ i : PatternNo, i.val = index → answers (b.patternEntry i).bytes) ∧
      (table = 4 → ∀ c : ControlNo, c.val = index → answers (b.commandEntry c).bytes) ∧
      (table = 5 → index = 0 → answers b.system.bytes)) ∧
    (2 ≤ bank.toNat ∨ 6 ≤ table.toNat ∨ (table = 0 ∧ 32 ≤ index) ∨ (table = 1 ∧ 1024 ≤ index) ∨
        (table = 2 ∧ 128 ≤ index) ∨ (table = 3 ∧ 512 ≤ index) ∨ (table = 4 ∧ 256 ≤ index) ∨
        (table = 5 ∧ 1 ≤ index) →
      exec .tableRead s = .next (s.answered rest [⟨0x07, .outOfRange, []⟩]).transmitNext)

/-- TABLE_COMMIT: BUSY while a commit is pending or a slot is occupied, INVALID_ENTRY with the first entry
that fails, and otherwise the swap at once in UNCONFIGURED or commit-pending in MAINTENANCE (R154). -/
def Obligations.TableCommitChecksThenCommits : Prop :=
  ∀ (s : State) (received : Time) (rest : List RxTelegram),
    s.Obeys .tableCommit [] received rest →
    (s.ts.commitPending = true ∨ (∃ k, s.slot k ≠ none) →
      exec .tableCommit s = .next (s.answered rest [⟨0x08, .busy, []⟩]).transmitNext) ∧
    (s.ts.commitPending = false → (∀ k, s.slot k = none) →
      (∀ table index, s.ts.shadow.firstInvalid = some (table, index) →
        exec .tableCommit s = .next (s.answered rest
          [⟨0x08, .invalidEntry, u8 table.code ++ u16 index⟩]).transmitNext) ∧
      (s.ts.shadow.firstInvalid = none → s.ts.mode = .maintenance →
        exec .tableCommit s = .next (State.transmitNext
          { s.answered rest [] with ts := { s.ts with commitPending := true } })) ∧
      (s.ts.shadow.firstInvalid = none → s.ts.mode = .unconfigured →
        exec .tableCommit s = .next (s.answered rest []).swap.transmitNext))

/-- What the swap leaves in every block: SHADOW's content in both banks, COMMITTED in the answer list, no
substitute value, the records of what is identical in both banks kept and the rest started afresh, the
trace selection and its last offered levels by what becomes of the traced point, the refresh started, and
OPERATE at the first commit; the reply banks, the cycle and the counters stay (R155, R86, R18, R66, R100,
R164). The next due time at the first swap is log entry 21's, the one at a changed scan period log entry
25's, both read from R69 (section 5.2) by inference. -/
def Obligations.SwapFollowsTheComparison : Prop :=
  ∀ s : State,
    let old := s.ts.active
    let new := s.ts.shadow
    let kept (p : PointNo) : Prop := old.pointEntry p = new.pointEntry p ∧
      ∀ c, c ∈ (new.pointEntry p).contacts → (old.moduleEntry c.mod).use ≠ .unused ∧
        old.moduleEntry c.mod = new.moduleEntry c.mod
    s.swap.ts = { s.ts with
      active := new, commitPending := false
      mode := if s.ts.mode = .unconfigured then .operate else s.ts.mode } ∧
    s.swap.dli = { s.dli with
      answers := s.dli.answers ++ [⟨0x08, .committed, []⟩]
      silenceStart :=
        if s.ts.mode = .unconfigured ∨ old.system.silenceTime ≠ new.system.silenceTime then s.now
        else s.dli.silenceStart } ∧
    s.swap.cq = { s.cq with cursor := some (.points 0) } ∧
    (∀ m, s.swap.moduleRec m =
      let r := s.moduleRec m
      let fresh (state : ModuleState) := { r with
        state := state, good := 0, miss := 0, wetting := false, image := none, readback := none }
      if (new.moduleEntry m).use ≠ .unused then
        if old.moduleEntry m = new.moduleEntry m then r else fresh .starting
      else if (old.moduleEntry m).use ≠ .unused then fresh .unused else r) ∧
    (∀ p, (kept p → s.swap.pointRec p = { s.pointRec p with substitute := none }) ∧
      (¬ kept p → s.swap.pointRec p = .init)) ∧
    (∀ g,
      let groupKept := old.groupEntry g = new.groupEntry g ∧
        (∀ i, i ∈ (new.groupEntry g).patternRange → old.patternEntry i = new.patternEntry i) ∧
        ∀ p, p ∈ (new.groupEntry g).memberList → kept p
      (groupKept → s.swap.groupRec g = s.groupRec g) ∧
      (¬ groupKept → s.swap.groupRec g = .init)) ∧
    (∀ m, s.swap.channelBank m =
      if (new.moduleEntry m).use ≠ .output then none
      else if old.moduleEntry m = new.moduleEntry m then s.channelBank m else some []) ∧
    (s.pe.tracedPoint = none →
      s.swap.pe.tracedPoint = none ∧ s.swap.pe.lastOffered = s.pe.lastOffered) ∧
    (∀ p, s.pe.tracedPoint = some p →
      ((new.pointEntry p).cls = .none →
        s.swap.pe.tracedPoint = none ∧ s.swap.pe.lastOffered = none) ∧
      ((new.pointEntry p).cls ≠ .none → s.swap.pe.tracedPoint = some p ∧
        (kept p → s.swap.pe.lastOffered = s.pe.lastOffered) ∧
        (¬ kept p → s.swap.pe.lastOffered = none))) ∧
    s.swap.slc = { s.slc with
      modules := s.swap.slc.modules, gridOrigin := s.swap.slc.gridOrigin,
      nextDue := s.swap.slc.nextDue, lateWaiting := s.swap.slc.lateWaiting } ∧
    (s.ts.mode = .unconfigured → s.swap.slc.gridOrigin = some s.now ∧
      s.swap.slc.nextDue = some s.now ∧ s.swap.slc.lateWaiting = false) ∧
    (s.ts.mode ≠ .unconfigured → old.system.scanPeriod = new.system.scanPeriod →
      s.swap.slc.gridOrigin = s.slc.gridOrigin ∧ s.swap.slc.nextDue = s.slc.nextDue ∧
      s.swap.slc.lateWaiting = s.slc.lateWaiting) ∧
    (∀ c, s.ts.mode ≠ .unconfigured → old.system.scanPeriod ≠ new.system.scanPeriod →
      s.slc.cycle = some c → s.swap.slc.gridOrigin = some c.start ∧
        s.swap.slc.nextDue = some (c.start + BitVec.ofNat 32 new.system.scanPeriod) ∧
        s.swap.slc.lateWaiting = false) ∧
    Frame [.ts, .slc, .pe, .groups, .channels, .cq, .dli] s s.swap

/-- At a held cycle start, with both reply banks free and every hand-over finished by the AGE, the pending
commit is made and the cycle goes on under the new bank; until then the swap waits (R72, R155). That the
AGE can have a hand-over unfinished between two events at all is the model's pace (log entry 11). -/
def Obligations.CommitSwapAtHeldStart : Prop :=
  ∀ (s : State) (c : Cycle), s.Running → s.slc.cycle = some c → c.held = true →
    s.ts.commitPending = true →
    (s.slc.banks = [] → s.age.handOvers = [] →
      exec .commitSwap s = .next s.swap.endHold.transmitNext ∧
      s.swap.endHold.ts = { s.ts with
        active := s.ts.shadow, commitPending := false
        mode := if s.ts.mode = .unconfigured then .operate else s.ts.mode } ∧
      (∀ m, State.NextUsed s.swap c.next m → c.scan = none →
        s.swap.endHold.slc.cycle = some { c with held := false })) ∧
    (s.slc.banks ≠ [] ∨ s.age.handOvers ≠ [] → exec .commitSwap s = .next s)

/-- Validation reports the first entry that fails its check, in the fixed order of the tables and in
ascending index within each, and passes a bank in which no entry fails and every field of the System Record
lies within its range (R153, R149, R2). A bank that passed has every structural property its users rely on
(R1, R54, R103). -/
def Obligations.ValidatedBankIsSound : Prop :=
  (∀ b : Tables, b.canonical →
    let use (m : ModuleNo) : Use := (b.moduleEntry m).use
    let valid (v : StateValue) : PointClass → Bool
      | .none => false
      | .single => [StateValue.off, .on].contains v
      | .pair => [StateValue.down, .up, .faultOpen, .faultBoth].contains v
      | .flasher => [StateValue.dark, .lit, .flashing, .irregular].contains v
    let onInput (c : Contact) : Bool := use c.mod = .input
    let moduleFails (m : ModuleNo) : Bool := use m ≠ .unused && (List.finRange 32).any fun k =>
      k.val < m.val && use k ≠ .unused && (b.moduleEntry k).address = (b.moduleEntry m).address
    let pointFails (p : PointNo) : Bool :=
      let e := b.pointEntry p
      (e.cls ≠ .none && !onInput e.a) ||
        (e.cls = .pair && (!onInput e.b || (e.a.mod = e.b.mod && e.a.contact = e.b.contact))) ||
        (e.cls = .flasher && e.halfMax < e.halfMin)
    let patternFails (i : PatternNo) : Bool := (List.finRange 128).any fun g =>
      let e := b.groupEntry g
      e.firstPattern.val ≤ i.val && i.val < e.firstPattern.val + e.patternCount &&
        (List.finRange 6).any fun k =>
          let cls := (b.pointEntry e.members[k]).cls
          k.val < e.memberCount.val && cls ≠ .none &&
            ((b.patternEntry i).required[k]).any fun v => !valid v cls
    let groupFails (g : GroupNo) : Bool :=
      let e := b.groupEntry g
      let members := e.members.toList.take e.memberCount.val
      e.memberCount.val ≠ 0 && ((members.any fun p => (b.pointEntry p).cls = .none) ||
        !decide members.Nodup || 511 < e.firstPattern.val + e.patternCount - 1)
    let commandFails (c : ControlNo) : Bool :=
      let e := b.commandEntry c
      e.defined && (use e.mod ≠ .output || e.proving.any fun p =>
        (b.pointEntry p).cls = .none || !valid e.expected (b.pointEntry p).cls)
    let y := b.system
    let systemPasses : Bool := [(y.scanPeriod, 4, 50), (y.replyWindow, 100, 2000), (y.retries, 0, 3),
      (y.lossThreshold, 1, 15), (y.recoveryCount, 1, 15), (y.settleTime, 20, 1000),
      (y.idleInterval, 200, 5000), (y.watermark, 16, 248)].all (fun f => f.2.1 ≤ f.1 && f.1 ≤ f.2.2) &&
        (y.silenceTime = 0 || (500 ≤ y.silenceTime && y.silenceTime ≤ 30000))
    let failing : List (TableId × Nat) :=
      (((List.finRange 32).filter moduleFails).map fun m => (.moduleMap, m.val)) ++
        (((List.finRange 1024).filter pointFails).map fun p => (.points, p.val)) ++
        (((List.finRange 512).filter patternFails).map fun i => (.patterns, i.val)) ++
        (((List.finRange 128).filter groupFails).map fun g => (.groups, g.val)) ++
        (((List.finRange 256).filter commandFails).map fun c => (.commands, c.val)) ++
        (if systemPasses then [] else [(.system, 0)])
    b.firstInvalid = failing.head?) ∧
  ∀ b : Tables, b.firstInvalid = none →
    (∀ m k : ModuleNo, k ≠ m → (b.moduleEntry m).use ≠ .unused → (b.moduleEntry k).use ≠ .unused →
      (b.moduleEntry k).address ≠ (b.moduleEntry m).address) ∧
    (∀ p c, c ∈ (b.pointEntry p).contacts → (b.moduleEntry c.mod).use = .input) ∧
    (∀ p, (b.pointEntry p).cls = .pair →
      (b.pointEntry p).a.mod ≠ (b.pointEntry p).b.mod ∨
        (b.pointEntry p).a.contact ≠ (b.pointEntry p).b.contact) ∧
    (∀ p, (b.pointEntry p).cls = .flasher → (b.pointEntry p).halfMin ≤ (b.pointEntry p).halfMax) ∧
    (∀ g, (b.groupEntry g).isDefined = true →
      (∀ p, p ∈ (b.groupEntry g).memberList → (b.pointEntry p).cls ≠ .none) ∧
      (b.groupEntry g).memberList.Nodup ∧
      (b.groupEntry g).firstPattern.val + (b.groupEntry g).patternCount ≤ 512) ∧
    (∀ g i, (b.groupEntry g).isDefined = true → i ∈ (b.groupEntry g).patternRange →
      ∀ v p, (some v, p) ∈ (b.patternEntry i).required.toList.zip (b.groupEntry g).memberList →
        v.validFor (b.pointEntry p).cls = true) ∧
    (∀ c, (b.commandEntry c).defined = true →
      (b.moduleEntry (b.commandEntry c).mod).use = .output ∧
      ∀ p, (b.commandEntry c).proving = some p →
        (b.commandEntry c).expected.validFor (b.pointEntry p).cls = true)

/-! ### Points and the trace -/

/-- SUBSTITUTE and RELEASE. A SUBSTITUTE of a defined point with a valid value stores it; when the reported
view changes it forms a POINT record of a reported point and hands the point to the AGE; it is answered
ACCEPTED, and every other one is OUT_OF_RANGE and changes nothing (R15). A RELEASE removes a substitute
value, reports the evaluated state in a POINT record of a reported point, with period and duty when it is
FLASHING, and hands the point to the AGE when its reported state changes; with no substitute value it is
NOT_ACTIVE, and above 1023 OUT_OF_RANGE (R16). -/
def Obligations.SubstituteAndReleaseSetTheReportedState : Prop :=
  ∀ (s : State) (received : Time) (rest : List RxTelegram) (n : Nat), n < 65536 →
    (∀ code : Byte, s.Obeys .substitute (u16 n ++ [code]) received rest →
      (∀ (p : PointNo) (v : StateValue), p.val = n → code.toNat = v.code →
        v.validFor (s.ts.active.pointEntry p).cls = true →
        let old := s.pointRec p
        let changed : Prop := old.reported ≠ .known v ∨ old.substitute = none
        let stored := (s.answered rest []).setPointRec p { old with substitute := some v }
        let queued :=
          if changed ∧ (s.ts.active.pointEntry p).report = true then
            stored.hand s.now (.point p (.known v) true .none)
          else stored
        let handed := if changed then queued.ageChange [p] s.now else queued
        exec .substitute s = .next (handed.answer 0x09 .accepted (u16 n)).transmitNext) ∧
      ((∀ (p : PointNo) (v : StateValue), p.val = n → code.toNat = v.code →
        v.validFor (s.ts.active.pointEntry p).cls = false) →
        exec .substitute s = .next (s.answered rest [⟨0x09, .outOfRange, []⟩]).transmitNext)) ∧
    (s.Obeys .release (u16 n) received rest →
      (1024 ≤ n →
        exec .release s = .next (s.answered rest [⟨0x0A, .outOfRange, []⟩]).transmitNext) ∧
      (∀ p : PointNo, p.val = n → (s.pointRec p).substitute = none →
        exec .release s = .next (s.answered rest [⟨0x0A, .notActive, []⟩]).transmitNext) ∧
      (∀ (p : PointNo) (v : StateValue), p.val = n → (s.pointRec p).substitute = some v →
        let old := s.pointRec p
        let extra : PointExtra :=
          match old.evaluated, old.lastOnHalf, old.lastOffHalf with
          | .known .flashing, some x, some y => .period (periodOf x y) (dutyOf x y)
          | _, _, _ => .none
        let stored := (s.answered rest []).setPointRec p { old with substitute := none }
        let queued :=
          if (s.ts.active.pointEntry p).report = true then
            stored.hand s.now (.point p old.evaluated false extra)
          else stored
        let handed := if old.evaluated ≠ .known v then queued.ageChange [p] s.now else queued
        exec .release s = .next (handed.answer 0x0A .accepted (u16 n)).transmitNext))

/-- TRACE_SELECT of a defined point or of none sets the selection, makes the last offered levels absent
and clears the trace-gap flag; of a number above 1023 or an undefined point it is OUT_OF_RANGE
(R162). -/
def Obligations.TraceSelectSetsTheSelection : Prop :=
  ∀ (s : State) (received : Time) (rest : List RxTelegram) (n : Nat), n < 65536 →
    s.Obeys .traceSelect (u16 n) received rest →
    let select (p : Option PointNo) (payload : List Byte) : State :=
      { s.answered rest [⟨0x0C, .accepted, payload⟩] with
        pe := { s.pe with tracedPoint := p, lastOffered := none }
        cq := { s.cq with traceGap := false } }
    (n = 65535 → exec .traceSelectNone s = .next (select none []).transmitNext) ∧
    (1024 ≤ n → n ≠ 65535 → exec .traceSelectPoint s =
      .next (s.answered rest [⟨0x0C, .outOfRange, []⟩]).transmitNext) ∧
    (∀ p : PointNo, p.val = n →
      ((s.ts.active.pointEntry p).cls = .none → exec .traceSelectPoint s =
        .next (s.answered rest [⟨0x0C, .outOfRange, []⟩]).transmitNext) ∧
      ((s.ts.active.pointEntry p).cls ≠ .none → exec .traceSelectPoint s =
        .next (select (some p) (u16 n)).transmitNext))

/-- DIAG_READ answers the contents of its selector and index, or OUT_OF_RANGE, and changes no other state.
The contents stand field by field in the order of R165, each absent field as a presence byte 0, every time
in four bytes and every counter in two (R168, R171). The widths and presence bytes that R171 leaves open
(the levels of a FLASHER and the cause of a state or group code among them) are log entry 15's, the code of
the key level log entry 16's, both read from the spec by inference. That the
stored report flag of a point of class NONE and of an undefined group, the stored line address of an
UNUSED module, and the end-on-proof flag of every occupied slot are sent and not absent is the model's
choice (log entry 31). -/
def Obligations.DiagReadAnswersTheContents : Prop :=
  (∀ s : State,
    let opt (bytes : Option (List Byte)) : List Byte :=
      match bytes with
      | none => [0]
      | some bs => 1 :: bs
    let ms (x : Nat) : List Byte := u32 (BitVec.ofNat 32 x)
    let stateBytes (x : PointState) : List Byte :=
      match x with
      | .unknown c => [0] ++ u8 c.code
      | .known v => u8 v.code ++ [0]
    (∀ p,
      let e := s.ts.active.pointEntry p
      let r := s.pointRec p
      s.diagPoint p = u8 e.cls.code ++ flag e.report ++ stateBytes r.evaluated ++
        stateBytes r.reported ++ flag r.substitute.isSome ++
        opt (r.substitute.map fun v => u8 v.code) ++
        opt (r.candidate.map fun c => u8 c.target.code ++ u32 c.start) ++ opt (r.openSince.map u32) ++
        opt (r.pendingTransfer.map ms) ++ opt (r.lastTransfer.map ms) ++
        (if e.cls = .pair then [1] ++ flag r.slowTransfer else [0]) ++
        opt (r.filteredLevel.map flag) ++
        opt (r.levelCandidate.map fun c => flag c.level ++ u32 c.start) ++
        opt (r.lastEdge.map u32) ++ opt (r.lastOnHalf.map ms) ++ opt (r.lastOffHalf.map ms) ++
        (if e.cls = .flasher then [1] ++ u8 r.integration else [0]) ++
        flag (s.pe.tracedPoint = some p)) ∧
    (∀ g,
      let e := s.ts.active.groupEntry g
      let r := s.groupRec g
      s.diagGroup g = flag (e.memberCount ≠ 0) ++ flag e.report ++
        (match r.code with
          | .unknown c => [255] ++ u8 c.code
          | .code n => u8 n ++ [0]) ++ opt (r.noMatchStart.map u32)) ∧
    (∀ m,
      let e := s.ts.active.moduleEntry m
      let r := s.moduleRec m
      s.diagModule m = u8 e.use.code ++ u16 e.address ++ u8 r.state.code ++ u8 r.good ++ u8 r.miss ++
        (if e.use = .input then [1] ++ flag r.wetting else [0]) ++ u16 r.replyTimeouts ++
        u16 r.crcErrors ++ u16 r.formatErrors ++ u16 r.missedScans ++ u16 r.lossEvents ++
        opt (r.image.map fun i => levelBytes i.levels 8 ++ u32 i.time) ++
        opt (r.readback.map fun i => levelBytes i.levels 4 ++ u32 i.time) ++
        (if e.use = .output then
          (List.finRange 32).flatMap fun j =>
            let ch := (s.channel m j).getD .init
            u8 ch.drive.wire ++
              (match ch.condition with
                | .normal none => [0]
                | .normal (some t) => [1] ++ u32 t
                | .faulted none => [2]
                | .faulted (some t) => [3] ++ u32 t) ++
              (match ch.lastSent with
                | none => [255]
                | some code => u8 code.wire)
        else [])) ∧
    (∀ k, (s.slot k = none → s.diagSlot k = [0, 0, 0, 0, 0, 0, 0, 0, 0, 0]) ∧
      ∀ sl, s.slot k = some sl → s.diagSlot k =
        (match sl.phase with
          | .driving => ([1] : List Byte)
          | .confirming => [2]
          | .proving => [3]
          | .finishing => [4]) ++
          [1] ++ u8 sl.control ++ [1] ++ u8 sl.mod ++ u8 sl.channel ++ [1] ++ u8 sl.mode.wire ++
          opt (sl.proving.map fun q => u16 q.1 ++ u8 q.2.code) ++ [1] ++ flag sl.endOnProof ++
          [1] ++ u32 sl.acceptedAt ++ opt (sl.pulseEnd.map u32) ++ opt (sl.deadline.map u32) ++
          opt (sl.result.map fun r => u8 r.code)) ∧
    s.diagPart = u8 s.ts.mode.code ++ flag (s.ts.mode ≠ .unconfigured) ++ flag s.ts.commitPending ++
      (if s.ts.key = .presented then [0] else [1]) ++ flag s.dli.linkSilent ++
      u16 s.cq.queue.length ++
      opt (s.cq.cursor.map fun c =>
        match c with
        | .points n => [0] ++ u16 n
        | .groups n => [1] ++ u16 n
        | .modules n => [2] ++ u16 n
        | .atEnd => [3, 0, 0]) ++
      flag s.cq.traceGap ++ opt (s.pe.tracedPoint.map fun p => u16 p) ++ u8 s.slc.banks.length ++
      u16 s.slc.cycleOverruns ++ u16 s.cq.queueOverflows ++ u16 s.dli.crcErrors ++
      u16 s.dli.rxOverruns ++ u16 s.dli.silenceEvents ++ u32 s.tb.elapsed ++ u32 s.tb.offset) ∧
  ∀ (s : State) (received : Time) (rest : List RxTelegram) (selector : Byte) (index : Nat),
    index < 65536 → s.Obeys .diagRead ([selector] ++ u16 index) received rest →
    let accepted (contents : List Byte) := s.answered rest [⟨0x0B, .accepted, contents⟩]
    let refused := s.answered rest [⟨0x0B, .outOfRange, []⟩]
    (selector = 0 →
      (∀ p : PointNo, p.val = index →
        exec .diagReadPoint s = .next (accepted (s.diagPoint p)).transmitNext) ∧
      (1024 ≤ index → exec .diagReadPoint s = .next refused.transmitNext)) ∧
    (selector = 1 →
      (∀ g : GroupNo, g.val = index →
        exec .diagReadGroup s = .next (accepted (s.diagGroup g)).transmitNext) ∧
      (128 ≤ index → exec .diagReadGroup s = .next refused.transmitNext)) ∧
    (selector = 2 →
      (∀ m : ModuleNo, m.val = index →
        exec .diagReadModule s = .next (accepted (s.diagModule m)).transmitNext) ∧
      (32 ≤ index → exec .diagReadModule s = .next refused.transmitNext)) ∧
    (selector = 3 →
      (∀ k : SlotNo, k.val = index →
        exec .diagReadSlot s = .next (accepted (s.diagSlot k)).transmitNext) ∧
      (16 ≤ index → exec .diagReadSlot s = .next refused.transmitNext)) ∧
    (selector = 4 → exec .diagReadPart s = .next (accepted s.diagPart).transmitNext) ∧
    (5 ≤ selector.toNat → ∀ c, kindOf c = some .diagRead → exec c s = .next refused.transmitNext)

/-! ### Transmission -/

/-- The transmitter sends the oldest ANSWER first, then, unless a RESTART is in progress, an INDICATION
when the CQ offers anything; it takes this work when it becomes free, and an idle telegram when the idle
interval has passed and there is no other work (R142, R144). No header is formed before the moment of a
desk-silence expiry is over, which the model holds in a field of its own (R146, log entry 28); the end of
a RESTART's ACCEPTED answer is the command RESTART_RESET instead (log entry 20). -/
def Obligations.TransmitterTakesItsNextWork : Prop :=
  ∀ s : State,
    (s.dli.transmitter ≠ none → s.transmitNext = s) ∧
    (s.dli.transmitter = none →
      (∀ a waiting, s.dli.answers = a :: waiting → s.transmitNext = { s with
        dli := { s.dli with answers := waiting, transmitter := some (.answer a) } }) ∧
      (s.dli.answers = [] → s.dli.restarting = false → s.dli.expiryOpen = false →
        s.cq.queue ≠ [] ∨ s.cq.cursor ≠ none → s.transmitNext = s.assemble) ∧
      (s.dli.answers = [] → s.dli.restarting = true ∨ s.dli.expiryOpen = true →
        s.transmitNext = s) ∧
      (s.dli.answers = [] → s.cq.queue = [] → s.cq.cursor = none → s.transmitNext = s)) ∧
    (∀ sent, s.Running → s.dli.transmitter = some sent →
      ¬ (s.dli.restarting = true ∧ ∃ payload, sent = .answer ⟨0x0E, .accepted, payload⟩) →
      exec .transmitEnd s = .next (State.transmitNext { s with
        dli := { s.dli with transmitter := none, lastSendEnd := s.now } })) ∧
    (s.Running → s.dli.transmitter = none →
      s.system.idleInterval ≤ interval s.dli.lastSendEnd s.now →
      s.dli.answers = [] → s.dli.restarting = false → s.dli.expiryOpen = false →
      s.cq.queue = [] → s.cq.cursor = none →
      exec .idleIntervalExpiry s = .next { s with
        dli := { s.dli with transmitter := some (.indication (s.header 0) []) } })

/-- Assembly draws up to 16 records, queued ones first and oldest first, then, while a refresh is in
progress, the records of the walk of its cursor in the room that is left, and keeps the cursor that the
walk leaves; the header is judged afterwards on what remains (R131, R129, R125, R143). What leaves the part
is the telegram byte by byte: sync byte, body length, kind, body and CRC, most significant byte first; the
body of an ANSWER, and the header of 7 bytes and the records of 13 bytes of an INDICATION, with their flag
bits (R168, R170, R171). The widths of a group number, of a logical module and a channel, and of a raw level
in a record are read from the spec by inference (log entry 33). -/
def Obligations.IndicationDrawsQueueThenRefresh : Prop :=
  (∀ s : State, s.Canonical →
    ∃ h placed cursor,
      (placed, cursor) = s.refreshRecords (16 - (s.cq.queue.take 16).length) s.cq.cursor ∧
      s.assemble = { s with
        cq := { s.cq with queue := s.cq.queue.drop 16, cursor := cursor }
        dli := { s.dli with
          transmitter := some (.indication h (s.cq.queue.take 16 ++ placed)) } } ∧
      (s.cq.queue.take 16 ++ placed).length ≤ 16 ∧
      (∀ r, r ∈ placed → r.refresh = true ∧ r.deskTime = s.deskTime s.now) ∧
      (s.cq.cursor = none ∨ 16 ≤ s.cq.queue.length → placed = [] ∧ cursor = s.cq.cursor) ∧
      (s.cq.queue.length + placed.length < 16 → cursor = none) ∧
      h.mode = s.ts.mode ∧ (h.configured = true ↔ s.ts.mode ≠ .unconfigured) ∧
      h.commitPending = s.ts.commitPending ∧
      (h.keyPresented = true ↔ s.ts.key = .presented) ∧
      (h.queueHigh = true ↔ s.system.watermark ≤ s.cq.queue.length - 16) ∧
      h.linkSilent = s.dli.linkSilent ∧
      (h.moduleLost = true ↔ ∃ m, s.useOf m ≠ .unused ∧ (s.moduleRec m).state = .lost) ∧
      (h.channelFaulted = true ↔ ∃ m j c, s.channel m j = some c ∧ c.isFaulted = true) ∧
      h.deskTime = s.deskTime s.now ∧ h.count = (s.cq.queue.take 16 ++ placed).length) ∧
  (∀ (n : Nat) (t : Time),
    (u8 n).map BitVec.toNat = [n % 256] ∧ (u16 n).map BitVec.toNat = [n / 256 % 256, n % 256] ∧
    (u32 t).map BitVec.toNat =
      [t.toNat / 16777216, t.toNat / 65536 % 256, t.toNat / 256 % 256, t.toNat % 256]) ∧
  (∀ bytes : List Byte,
    let shiftIn (c : BitVec 16) (bit : Bool) : BitVec 16 :=
      if (c.msb ^^ bit) = true then (c <<< 1) ^^^ 0x1021#16 else c <<< 1
    let bits := bytes.flatMap fun b => (List.range 8).map fun k => b.getLsbD (7 - k)
    let crc := bits.foldl shiftIn 0xFFFF#16
    (crcBytes bytes).map BitVec.toNat = [crc.toNat / 256, crc.toNat % 256]) ∧
  ([.off, .on, .down, .up, .faultOpen, .faultBoth, .dark, .lit, .flashing, .irregular].map
      StateValue.code = [1, 2, 3, 4, 5, 6, 7, 8, 9, 10] ∧
    [.module, .wetting, .init].map Cause.code = [1, 2, 3] ∧
    [.unused, .starting, .active, .suspect, .lost].map ModuleState.code = [0, 1, 2, 3, 4] ∧
    [.unconfigured, .operate, .maintenance].map Mode.code = [0, 1, 2] ∧
    [.executed, .proved, .notProved, .unprovable, .already, .cancelled, .cancelledLink, .outputFault,
      .moduleLost, .rejectedNotConfigured, .rejectedCommitPending, .rejectedUndefined, .rejectedModule,
      .rejectedChannelFault, .rejectedBusy, .rejectedNoSlot].map CommandResult.code =
      [1, 2, 3, 4, 5, 6, 7, 8, 9, 10, 11, 12, 13, 14, 15, 16] ∧
    [.accepted, .clamped, .notPermitted, .busy, .outOfRange, .invalidEntry, .unknownKind, .badLength,
      .notActive, .committed, .withdrawn].map AnswerStatus.code = [1, 2, 3, 4, 5, 6, 7, 8, 9, 10, 11]) ∧
  (∀ (a : Answer) (h : Header) (records : List Record),
    let sent (kind : Byte) (body : List Byte) : List Byte :=
      let inner := u16 body.length ++ [kind] ++ body
      [0x7E] ++ inner ++ crcBytes inner
    OutTelegram.bytes (.answer a) = sent 0x82 ([a.request] ++ u8 a.status.code ++ a.payload) ∧
    OutTelegram.bytes (.indication h records) =
      sent 0x81 (h.bytes ++ records.flatMap Record.bytes)) ∧
  (∀ h : Header, ∃ flags : Byte, h.bytes = u8 h.mode.code ++ [flags] ++ u32 h.deskTime ++ u8 h.count ∧
    (List.range 8).map flags.getLsbD = [h.configured, h.commitPending, h.keyPresented, h.queueHigh,
      h.linkSilent, h.moduleLost, h.channelFaulted, false]) ∧
  ∀ r : Record, ∃ (kind flags : Byte) (content : List Byte),
    r.bytes = [kind, flags] ++ u32 r.deskTime ++ content ∧ content.length = 7 ∧
    let is (k : Byte) (bits : List Bool) (filled : List Byte) : Prop :=
      kind = k ∧ (List.range 8).map flags.getLsbD = r.refresh :: bits ++ [false, false, false, false] ∧
        content = filled ++ List.replicate (7 - filled.length) 0
    let bit (b : Bool) : List Byte := [if b then 1 else 0]
    match r.content with
    | .point p reported substituted extra =>
      let state : List Byte :=
        match reported with
        | .unknown c => [0] ++ u8 c.code
        | .known v => u8 v.code ++ [0]
      match extra with
      | .none => is 1 [substituted, false, false] (u16 p ++ state)
      | .transfer time slow => is 1 [substituted, true, false] (u16 p ++ state ++ u16 time ++ bit slow)
      | .period period duty =>
        is 1 [substituted, false, true] (u16 p ++ state ++ u16 period ++ u8 duty)
    | .group g code =>
      is 2 [false, false, false] (u8 g ++
        match code with
        | .unknown c => [255] ++ u8 c.code
        | .code n => u8 n)
    | .commandResult c result => is 3 [false, false, false] (u8 c ++ u8 result.code)
    | .module m state => is 4 [false, false, false] (u8 m ++ u8 state.code)
    | .channel m j clear => is 5 [clear, false, false] (u8 m ++ u8 j)
    | .trace p levels gap =>
      is 6 [gap, levels.b.isSome, false] (u16 p ++ bit levels.a ++ bit (levels.b.getD false))
    | .overflow => is 7 [false, false, false] []
    | .refreshEnd => is 8 [false, false, false] []

/-- A complete walk of the refresh places one record for each reported point, each reported group and
each used module, in ascending number within each kind, and then one REFRESH_END (R129, R130). -/
def Obligations.RefreshWalkReportsEachItemOnce : Prop :=
  ∀ (s : State) (room : Nat), s.Canonical →
    let t := s.ts.active
    let points := (List.finRange 1024).filter fun p =>
      (t.pointEntry p).isDefined && (t.pointEntry p).report
    let groups := (List.finRange 128).filter fun g =>
      (t.groupEntry g).isDefined && (t.groupEntry g).report
    let modules := (List.finRange 32).filter fun m => (t.moduleEntry m).use ≠ .unused
    let refreshed (content : RecordContent) : Record :=
      { refresh := true, deskTime := s.deskTime s.now, content := content }
    points.length + groups.length + modules.length < room →
    s.refreshRecords room (some (.points 0)) =
      ((points.map fun p => refreshed (.point p (s.pointRec p).reported (s.pointRec p).substituted
          (s.pointRec p).periodExtra)) ++
        (groups.map fun g => refreshed (.group g (s.groupRec g).code)) ++
        (modules.map fun m => refreshed (.module m (s.moduleRec m).state)) ++
        [refreshed .refreshEnd], none)

/-! ### The scan line -/

/-- A cycle start that falls due while no cycle runs starts a cycle on time, held when a commit is
pending and finished at once when no module is used; while a cycle runs the SLC waits, and the next cycle
then starts late, when the running one finishes, with CYCLE_OVERRUNS raised (R69 to R72). The wait as a flag
that CYCLE_START sets, and how a due time that equals the present time is taken at the finish, are the
model's choice (log entry 19). The next due time is the first grid point after the start: the due time
plus k scan periods for the smallest k of at least 1 that lies beyond the start (R69). -/
def Obligations.CyclesStartOnTheGrid : Prop :=
  (∀ (s : State) (due : Time), s.slc.nextDue = some due →
    let started (overruns : Nat) : ScanLine := { s.slc with
      nextDue := some (nextGridPoint due s.now s.system.scanPeriod)
      lateWaiting := false
      cycle :=
        if s.ts.commitPending = true ∨ ∃ m, s.useOf m ≠ .unused then
          some { start := s.now, held := s.ts.commitPending, next := 0, scan := none }
        else none
      cycleOverruns := overruns }
    (s.Running → reached due s.now = true → s.slc.cycle = none →
      exec .cycleStart s =
        .next (State.transmitNext { s with slc := started s.slc.cycleOverruns })) ∧
    (s.Running → reached due s.now = true → s.slc.cycle ≠ none → s.slc.lateWaiting = false →
      exec .cycleStart s =
        .next (State.transmitNext { s with slc := { s.slc with lateWaiting := true } })) ∧
    (∀ c, s.slc.cycle = some c → c.held = false → c.scan = none →
      (∀ m : ModuleNo, c.next ≤ m.val → s.useOf m = .unused) →
      (s.slc.lateWaiting = true ∨ (due ≠ s.now ∧ reached due s.now = true) →
        s.finishIfDone = { s with slc := started (bump s.slc.cycleOverruns) }) ∧
      (s.slc.lateWaiting = false → reached due s.now = false ∨ due = s.now →
        s.finishIfDone = { s with slc := { s.slc with cycle := none } }))) ∧
  ∀ (n start : Time) (period : Nat), 1 ≤ period → interval n start + period < 4294967296 →
    ∃ k, 1 ≤ k ∧ nextGridPoint n start period = n + BitVec.ofNat 32 (k * period) ∧
      interval n start < interval n (n + BitVec.ofNat 32 (k * period)) ∧
      ∀ j, 1 ≤ j → j < k → interval n (n + BitVec.ofNat 32 (j * period)) ≤ interval n start

/-- The scan of the next used module begins with a poll by its use: an INPUT POLL once a reply bank is
free, a DRIVE POLL at any time, with the last sent codes taken from the drive codes of an ACTIVE or
SUSPECT module and OFF for any other; a retry needs no bank (R70, R73, R75, R93). The reply is awaited from
the end of the poll's last byte: 5 bytes or 13, of 10 microseconds each (R76, R169; that a poll begins at the
line clock's last reading is log entry 8). On the line stands the poll's frame: the line address, the kind,
the data length, the data and the CRC; a DRIVE POLL has two bits for each channel, channel 0 in the least
significant bits of the first byte, with OFF 0, ON 1 and FLASH 2 (R169). -/
def Obligations.PollsFollowTheModuleMap : Prop :=
  ∀ (s : State) (c : Cycle) (m : ModuleNo) (sent : Nat), s.Running → s.slc.cycle = some c →
    c.held = false →
    (c.scan = none ∧ s.NextUsed c.next m ∧ sent = 1) ∨
      (2 ≤ sent ∧ ∃ since more,
        c.scan = some
          { mod := m, sent := sent - 1, line := .toSend, since := since, more := more }) →
    let code (ch : Channel) : DriveCode :=
      if (s.moduleRec m).state = .active ∨ (s.moduleRec m).state = .suspect then ch.drive else .off
    let address : Byte := BitVec.ofNat 8 (s.ts.active.moduleEntry m).address
    let framed (bytes : List Byte) : List Byte := bytes ++ crcBytes bytes
    let polled (length : Nat) : ScanLine := { s.slc with
      cycle := some { c with
        scan := some
          { mod := m, sent := sent, line := .awaiting
            since := LineTime.later { ms := s.now, micros := s.slc.lineClock } (10 * length)
            more := 0 } } }
    (s.useOf m = .input →
      (s.slc.banks.length < 2 ∨ 2 ≤ sent →
        exec .inputPoll s = .next (State.transmitNext { s with slc := polled 5 }) ∧
        (State.transmitNext { s with slc := polled 5 }).pollFrame =
          some (framed [address, 0x11, 0])) ∧
      (2 ≤ s.slc.banks.length → sent = 1 → exec .inputPoll s = .next s)) ∧
    (s.useOf m = .output →
      ∃ w, exec .drivePoll s = .next w.transmitNext ∧ w.slc = polled 13 ∧
        (∀ j, w.channel m j =
          (s.channel m j).map fun ch => { ch with lastSent := some (code ch) }) ∧
        (∀ k j, k ≠ m → w.channel k j = s.channel k j) ∧ Frame [.slc, .channels] s w ∧
        ∃ data : List Byte, data.length = 8 ∧
          w.transmitNext.pollFrame = some (framed ([address, 0x12, 8] ++ data)) ∧
          ∀ j : ChannelNo, (data[j.val / 4]?).map (fun b => b.toNat / 4 ^ (j.val % 4) % 4) =
            some (match (s.channel m j).map code with
              | none | some .off => 0
              | some .on => 1
              | some .flash => 2))

/-- The first byte of a reply must begin within the reply window, its end included; otherwise the attempt
fails with a timeout at the end of the window. A reception, of however many bytes, ends by silence once its
bytes have run out and the line has been silent for longer than the window, and fails as a format error at
that moment. Both are judged on the line clock, which counts on with the elapsed time and does not run back;
on an empty queue the part takes neither end before its moment and lets no time pass beyond it. A failed
attempt raises one counter and is followed by a retry while one is left, or ends the scan missed (R76 to
R78). The operands are the line clock within the present millisecond and how long bytes go on after the
first (log entry 8). -/
def Obligations.AttemptsFailByTimeoutOrSilence : Prop :=
  (∀ (s : State) (c : Cycle) (sc : Scan) (clock : Micros) (more : BitVec 32),
    let window := s.system.replyWindow
    let reading : LineTime := { ms := s.now, micros := clock }
    let waited := sc.since.microsTo reading
    let present := sc.since.microsTo { ms := s.now, micros := 999 }
    let silence : Int := 10 + (sc.more.toNat : Int) + (window : Int)
    let r := s.moduleRec sc.mod
    let at_ : State := { s with slc := { s.slc with lineClock := clock } }
    let failed (r' : ModuleRec) (t : Time) : State :=
      let counted := at_.setModuleRec sc.mod r'
      if sc.sent < 1 + s.system.retries then
        { counted with slc := { counted.slc with
          cycle := some { c with scan := some { sc with line := .toSend } } } }
      else counted.missScan sc.mod t
    (s.Scanning c sc .awaiting →
      (s.slc.lineClock ≤ clock → 0 ≤ waited → waited ≤ window →
        exec (.replyFirstByte ⟨clock, more⟩) s = .next (State.transmitNext { s with slc := { s.slc with
          lineClock := clock
          cycle := some { c with
            scan := some { sc with line := .receiving, since := reading, more := more } } } })) ∧
      (clock < s.slc.lineClock ∨ waited < 0 ∨ window < waited →
        exec (.replyFirstByte ⟨clock, more⟩) s = .next s) ∧
      (s.slc.lineClock ≤ clock → window ≤ waited → exec (.replyTimeout clock) s =
        .next (failed { r with replyTimeouts := bump r.replyTimeouts }
          (sc.since.later window).ms).transmitNext) ∧
      (clock < s.slc.lineClock ∨ waited < window → exec (.replyTimeout clock) s = .next s) ∧
      (s.selfStarted = some (.replyTimeout clock) → s.slc.lineClock ≤ clock ∧ window ≤ waited) ∧
      (window ≤ present → s.selfStarted ≠ none)) ∧
    (s.Scanning c sc .receiving →
      (s.slc.lineClock ≤ clock → silence < waited → exec (.replySilence clock) s =
        .next (failed { r with formatErrors := bump r.formatErrors }
          (sc.since.later (10 + sc.more.toNat + window + 1)).ms).transmitNext) ∧
      (clock < s.slc.lineClock ∨ waited ≤ silence → exec (.replySilence clock) s = .next s) ∧
      (s.selfStarted = some (.replySilence clock) → s.slc.lineClock ≤ clock ∧ silence < waited) ∧
      (silence < present → s.selfStarted ≠ none))) ∧
  ∀ (a : LineTime) (n : Nat), n ≤ 2000000000 →
    a.microsTo (a.later n) = n ∧ ∀ ms micros : Nat, ms < 2147483648 → (h : micros < 1000) →
      LineTime.microsTo { ms := a.ms, micros := 0 }
        { ms := a.ms + BitVec.ofNat 32 ms, micros := ⟨micros, h⟩ } = 1000 * ms + micros

/-- A whole reply is checked in order: a bad CRC raises CRC_ERRORS; then a wrong address, a wrong kind or
a wrong length raises FORMAT_ERRORS; the attempt fails. A well-formed reply that reports module fault
ends the scan missed at once (R77, R78). That a reply that fails a check has the same effect by either reply
row is log entry 23 (DESIGN CHOICE); a reply whose bytes cannot have ended by then is no reply yet and
changes nothing (log entries 2 and 8). -/
def Obligations.ReplyChecksInOrder : Prop :=
  ∀ (s : State) (c : Cycle) (sc : Scan) (reply : List Byte) (clock : Micros),
    s.Scanning c sc .receiving → replyShape reply = true →
    let m := sc.mod
    let e := s.ts.active.moduleEntry m
    let r := s.moduleRec m
    let at_ : State := { s with slc := { s.slc with lineClock := clock } }
    let failed (r' : ModuleRec) : State :=
      let counted := at_.setModuleRec m r'
      if sc.sent < 1 + s.system.retries then
        { counted with slc := { counted.slc with
          cycle := some { c with scan := some { sc with line := .toSend } } } }
      else counted.missScan m s.now
    let expected : Nat × Nat := match e.use with
      | .input => (0x21, 9)
      | .output => (0x22, 5)
      | .unused => (0, 0)
    (¬ s.ReplyEnds sc reply.length clock →
      exec (.inputReply ⟨reply, clock⟩) s = .next s ∧
      exec (.driveReply ⟨reply, clock⟩) s = .next s) ∧
    (s.ReplyEnds sc reply.length clock →
      (crcCorrect reply = false →
        exec (.inputReply ⟨reply, clock⟩) s =
          .next (failed { r with crcErrors := bump r.crcErrors }).transmitNext ∧
        exec (.driveReply ⟨reply, clock⟩) s = exec (.inputReply ⟨reply, clock⟩) s) ∧
      (crcCorrect reply = true →
        num8 reply 0 ≠ e.address ∨ num8 reply 1 ≠ expected.1 ∨ num8 reply 2 ≠ expected.2 →
        exec (.inputReply ⟨reply, clock⟩) s =
          .next (failed { r with formatErrors := bump r.formatErrors }).transmitNext ∧
        exec (.driveReply ⟨reply, clock⟩) s = exec (.inputReply ⟨reply, clock⟩) s) ∧
      (crcCorrect reply = true → num8 reply 0 = e.address → num8 reply 1 = expected.1 →
        num8 reply 2 = expected.2 →
        (e.use = .input → (byteAt reply 11).getLsbD 1 = true →
          exec (.inputReply ⟨reply, clock⟩) s = .next (at_.missScan m s.now).transmitNext) ∧
        (e.use = .output → (byteAt reply 7).getLsbD 1 = true →
          exec (.driveReply ⟨reply, clock⟩) s = .next (at_.missScan m s.now).transmitNext)))

/-- An accepted INPUT REPLY stores its levels, its time and its wetting flag and applies the good scan; then
come the MODULE record of a changed state, the module notice of a changed state or wetting, the image in a
bank when the module is ACTIVE, and the end of the scan (R74, R79, R82, R84). -/
def Obligations.AcceptedInputReplyStoresTheImage : Prop :=
  ∀ (s : State) (c : Cycle) (sc : Scan) (levels : List Byte) (flags : Byte) (clock : Micros),
    s.Scanning c sc .receiving → s.ReplyEnds sc 14 clock → s.useOf sc.mod = .input →
    (s.ts.active.moduleEntry sc.mod).address < 256 → levels.length = 8 →
    flags.getLsbD 1 = false → s.slc.banks.length < 2 →
    let m := sc.mod
    let image : BitVec 64 := imageLevels levels
    let old := s.moduleRec m
    let good := min (old.good + 1) 15
    let state : ModuleState := match old.state with
      | .suspect => .active
      | .starting => if s.system.recoveryCount ≤ good then .active else .starting
      | .lost => if s.system.recoveryCount ≤ good then .active else .lost
      | other => other
    let new : ModuleRec := { old with
      image := some ⟨image, s.now⟩, wetting := flags.getLsbD 0, good := good, miss := 0,
      state := state }
    let stored : State :=
      State.setModuleRec { s with slc := { s.slc with lineClock := clock } } m new
    let recorded := if state ≠ old.state then stored.hand s.now (.module m state) else stored
    let noticed :=
      if state ≠ old.state ∨ flags.getLsbD 0 ≠ old.wetting then recorded.moduleNotice m s.now
      else recorded
    let placed : State :=
      if state = .active then { noticed with slc := { noticed.slc with
        banks := s.slc.banks ++ [⟨m, image, s.now⟩] } }
      else noticed
    let w := placed.endScan m
    exec (.inputReply ⟨frame (s.ts.active.moduleEntry m).address 0x21 (levels ++ [flags]), clock⟩) s =
        .next w.transmitNext ∧
      w.moduleRec m = new ∧ (∀ k, k ≠ m → w.moduleRec k = s.moduleRec k) ∧
      w.slc.banks =
        (if state = .active then s.slc.banks ++ [⟨m, image, s.now⟩] else s.slc.banks) ∧
      (∀ i : ContactNo, image.getLsbD i =
        (byteAt levels (i.val / 8)).getLsbD (i.val % 8)) ∧
      Frame [.slc, .pe, .groups, .age, .channels, .slots, .cq] s w

/-- An accepted DRIVE REPLY stores the readback and its time and applies the good scan; then come the MODULE
record of a changed state, the readback at the ODU and the CSU, and the end of the scan; while the module
is then not ACTIVE no channel is supervised (R80, R82, R84, R99). -/
def Obligations.AcceptedDriveReplyStoresTheReadback : Prop :=
  ∀ (s : State) (c : Cycle) (sc : Scan) (levels : List Byte) (flags : Byte) (clock : Micros),
    s.Scanning c sc .receiving → s.ReplyEnds sc 10 clock → s.useOf sc.mod = .output →
    (s.ts.active.moduleEntry sc.mod).address < 256 → levels.length = 4 →
    flags.getLsbD 1 = false →
    let m := sc.mod
    let readback : BitVec 32 := readbackLevels levels
    let old := s.moduleRec m
    let good := min (old.good + 1) 15
    let state : ModuleState := match old.state with
      | .suspect => .active
      | .starting => if s.system.recoveryCount ≤ good then .active else .starting
      | .lost => if s.system.recoveryCount ≤ good then .active else .lost
      | other => other
    let new : ModuleRec := { old with
      readback := some ⟨readback, s.now⟩, good := good, miss := 0, state := state }
    let stored : State :=
      State.setModuleRec { s with slc := { s.slc with lineClock := clock } } m new
    let recorded := if state ≠ old.state then stored.hand s.now (.module m state) else stored
    let w := (recorded.oduReadback m readback s.now).endScan m
    exec (.driveReply ⟨frame (s.ts.active.moduleEntry m).address 0x22 (levels ++ [flags]), clock⟩) s =
        .next w.transmitNext ∧
      w.moduleRec m = new ∧ (∀ k, k ≠ m → w.moduleRec k = s.moduleRec k) ∧
      w.slc.banks = s.slc.banks ∧
      (state ≠ .active → ∀ k j, w.channel k j = s.channel k j) ∧
      (∀ i : ChannelNo, readback.getLsbD i =
        (byteAt levels (i.val / 8)).getLsbD (i.val % 8)) ∧
      Frame [.slc, .channels, .slots, .cq] s w

/-- The module state machine: the counts, the counters and the state after a good scan (R82) and after a
missed scan (R83). A missed scan brings these about and then hands on a change of state, the MODULE record
first and then the notices of the module's use, and ends (R78, R84). -/
def Obligations.ModuleStateMachine : Prop :=
  ∀ (r : ModuleRec) (sys : SystemRecord),
    r.goodScan sys = { r with
      good := min (r.good + 1) 15, miss := 0
      state :=
        if r.state = .suspect then .active
        else if (r.state = .starting ∨ r.state = .lost) ∧ sys.recoveryCount ≤ min (r.good + 1) 15
          then .active
        else r.state } ∧
    (let miss := min (r.miss + 1) 15
     let lost := (r.state = .active ∨ r.state = .suspect) ∧ sys.lossThreshold ≤ miss
     r.missedScan sys = { r with
       good := 0, miss := miss
       missedScans := if r.state = .lost then r.missedScans else bump r.missedScans
       lossEvents := if lost then bump r.lossEvents else r.lossEvents
       state := if lost then .lost else if r.state = .active then .suspect else r.state }) ∧
    ∀ (s : State) (m : ModuleNo) (t : Time), s.system = sys → s.moduleRec m = r →
      let new := r.missedScan sys
      let stored := s.setModuleRec m new
      let recorded := stored.hand t (.module m new.state)
      (new.state = r.state → s.missScan m t = stored.endScan m) ∧
      (new.state ≠ r.state →
        (s.useOf m = .input → s.missScan m t = (recorded.moduleNotice m t).endScan m) ∧
        (s.useOf m = .output → new.state = .lost →
          s.missScan m t = ((recorded.oduModuleLost m).csuModuleLost m t).endScan m) ∧
        (s.useOf m = .output → new.state ≠ .lost → s.missScan m t = recorded.endScan m)) ∧
      (s.missScan m t).moduleRec m = new ∧
      ∀ k, k ≠ m → (s.missScan m t).moduleRec k = s.moduleRec k

/-- What a module's change of state, and of wetting, hands on. A notice loses each defined point with a
contact on the module that is no longer deliverable, in ascending number, and hands the AGE the points
whose reported state it changed (R6, R8); a point that is lost takes its loss cause with its working fields
absent, with a POINT record and the CSU's notice, or is left as it is when it has that cause already (the
mark that its fields are of an earlier period is the model's choice, log entry 27). At LOST the ODU turns
every channel of the module OFF with its starts absent and its condition kept (R98), and the CSU ends every
slot on the module, with MODULE_LOST from an open phase (R113). The end of a scan leads to the next used
module, or to the end of the cycle (R70). -/
def Obligations.ModuleChangesReachPointsChannelsAndSlots : Prop :=
  ∀ (s : State) (m : ModuleNo) (t : Time),
    (s.Canonical →
      let lost := (List.finRange 1024).filter fun p =>
        (s.ts.active.pointEntry p).usesModule m && !s.pointDeliverable (s.ts.active.pointEntry p)
      let u := lost.foldl (fun s p => s.losePoint p t) s
      s.moduleNotice m t = u.ageNotice
        (lost.filter fun p => (u.pointRec p).reported ≠ (s.pointRec p).reported) t) ∧
    (∀ p,
      let e := s.ts.active.pointEntry p
      let old := s.pointRec p
      let cause : Cause :=
        if e.contacts.any fun c => (s.moduleRec c.mod).state ≠ .active ∧
          (s.moduleRec c.mod).state ≠ .suspect then .module else .wetting
      let clear (r : PointRecord) : PointRecord := { r with
        candidate := none, openSince := none, pendingTransfer := none, filteredLevel := none,
        levelCandidate := none, lastEdge := none, lastOnHalf := none, lastOffHalf := none,
        integration := 0, stale := false }
      (old.evaluated ≠ .unknown cause →
        let new : PointRecord := { clear old with evaluated := .unknown cause }
        let stored := s.setPointRec p new
        let queued :=
          if new.reported ≠ old.reported ∧ e.report = true then
            stored.hand t (.point p new.reported new.substitute.isSome .none)
          else stored
        s.losePoint p t = queued.csuNotice p (.unknown cause)) ∧
      (old.evaluated = .unknown cause → ∃ again : PointRecord,
        s.losePoint p t = s.setPointRec p again ∧ again = { old with stale := again.stale } ∧
        (if again.stale = true then clear again else again) = clear old)) ∧
    ((∀ j, (s.oduModuleLost m).channel m j = (s.channel m j).map fun ch => { ch with
        drive := .off
        condition := if ch.isFaulted then .faulted none else .normal none }) ∧
      (∀ k j, k ≠ m → (s.oduModuleLost m).channel k j = s.channel k j) ∧
      Frame [.channels] s (s.oduModuleLost m)) ∧
    ((∀ k, (s.csuModuleLost m t).slot k =
        (s.slot k).bind fun sl => if sl.mod = m then none else some sl) ∧
      (s.cq.queue.length ≤ 240 → (s.csuModuleLost m t).cq = { s.cq with
        queue := s.cq.queue ++ (List.finRange 16).filterMap fun k => (s.slot k).bind fun sl =>
          if sl.mod = m ∧ sl.phase ≠ .finishing then
            some { refresh := false, deskTime := t + s.tb.offset,
                   content := .commandResult sl.control .moduleLost }
          else none }) ∧
      Frame [.slots, .cq] s (s.csuModuleLost m t)) ∧
    (∀ c, s.slc.cycle = some c →
      let ended : State := { s with slc := { s.slc with
        cycle := some { c with next := m.val + 1, scan := none } } }
      ((∃ k : ModuleNo, m < k ∧ s.useOf k ≠ .unused) → s.endScan m = ended) ∧
      ((∀ k : ModuleNo, m < k → s.useOf k = .unused) → s.endScan m = ended.finishIfDone))

/-! ### Output channels -/

/-- A set code request: a differing code is taken and ends a mismatch, an equal one changes nothing, and
a FAULTED channel takes neither ON nor FLASH; every other channel stays (R92). -/
def Obligations.SetCodeChangesOneNormalChannel : Prop :=
  ∀ (s : State) (m : ModuleNo) (j : ChannelNo) (code : DriveCode) (ch : Channel),
    s.channel m j = some ch →
    (ch.isFaulted = true → s.setCode m j code = s) ∧
    (ch.drive = code → s.setCode m j code = s) ∧
    (ch.isFaulted = false → ch.drive ≠ code →
      (s.setCode m j code).channel m j =
        some { ch with drive := code, condition := .normal none } ∧
      (∀ k i, ¬ (k = m ∧ i = j) → (s.setCode m j code).channel k i = s.channel k i) ∧
      Frame [.channels] s (s.setCode m j code))

/-- Supervision of one channel at a readback of an ACTIVE module: a mismatch that lasts the settle time
makes a normal ON or OFF channel FAULTED with code OFF, a readback of 0 that lasts it clears a FAULTED
one, one contrary readback ends either run, and FLASH is not compared (R95 to R97). -/
def Obligations.SupervisionFaultsAndClears : Prop :=
  ∀ (ch : Channel) (level : Bool) (t : Time) (settle : Nat), 0 < settle →
    (∀ mismatch, ch.condition = .normal mismatch → ch.drive = .flash →
      ch.supervise level t settle = .unchanged ch) ∧
    (∀ mismatch, ch.condition = .normal mismatch → ch.drive ≠ .flash →
      ((level = true ↔ ch.drive = .on) →
        ch.supervise level t settle = .unchanged { ch with condition := .normal none }) ∧
      (¬ (level = true ↔ ch.drive = .on) →
        (mismatch = none →
          ch.supervise level t settle = .unchanged { ch with condition := .normal (some t) }) ∧
        (∀ start, mismatch = some start → interval start t < settle →
          ch.supervise level t settle = .unchanged ch) ∧
        (∀ start, mismatch = some start → settle ≤ interval start t →
          ch.supervise level t settle =
            .fault { ch with drive := .off, condition := .faulted none }))) ∧
    (∀ agreement, ch.condition = .faulted agreement →
      (level = true →
        ch.supervise level t settle = .unchanged { ch with condition := .faulted none }) ∧
      (level = false →
        (agreement = none →
          ch.supervise level t settle = .unchanged { ch with condition := .faulted (some t) }) ∧
        (∀ start, agreement = some start → interval start t < settle →
          ch.supervise level t settle = .unchanged ch) ∧
        (∀ start, agreement = some start → settle ≤ interval start t →
          ch.supervise level t settle = .clear { ch with condition := .normal none })))

/-- What the ODU and the CSU do at a readback. On a module that is ACTIVE every channel is supervised: it
takes the record of its verdict, with a CHANNEL record when it becomes FAULTED or clears, in channel order
(R94 to R97); the slot that owns a channel that becomes FAULTED frees, with OUTPUT_FAULT from an open phase
(R112). On any other module no channel is compared (R99). Then a CONFIRMING slot on the module frees with
EXECUTED when its channel's last sent code is its drive code and the readback shows the code of its mode
(R111). Every other slot stays. -/
def Obligations.ReadbackFaultsClearsAndConfirms : Prop :=
  ∀ (s : State) (m : ModuleNo) (levels : BitVec 32) (t : Time), s.SlotsSound →
    let w := s.oduReadback m levels t
    let supervised : Bool := decide ((s.moduleRec m).state = .active)
    let verdict (j : ChannelNo) (ch : Channel) : Verdict :=
      ch.supervise (levels.getLsbD j) t s.system.settleTime
    let faults (sl : Slot) : Bool := decide (sl.mod = m) && supervised &&
      (s.channel m sl.channel).any fun ch =>
        match verdict sl.channel ch with
        | .fault _ => true
        | .unchanged _ | .clear _ => false
    let confirms (sl : Slot) : Bool := decide (sl.phase = .confirming) && decide (sl.mod = m) &&
      (w.channel m sl.channel).any fun c => decide (c.lastSent = some c.drive) &&
        match sl.mode with
        | .set => decide (c.drive = .on) && levels.getLsbD sl.channel
        | .clear => decide (c.drive = .off) && !levels.getLsbD sl.channel
        | .flash => decide (c.drive = .flash)
        | .pulse => false
    let formed (content : RecordContent) : Record :=
      { refresh := false, deskTime := t + s.tb.offset, content := content }
    (∀ j ch, s.channel m j = some ch → w.channel m j = some
      (if supervised then
        match verdict j ch with
        | .unchanged c => c
        | .fault c => c
        | .clear c => c
      else ch)) ∧
    (∀ k j, s.channel k j = none ∨ k ≠ m → w.channel k j = s.channel k j) ∧
    (∀ k, w.slot k = (s.slot k).bind fun sl => if faults sl || confirms sl then none else some sl) ∧
    (s.cq.queue.length ≤ 176 → w.cq = { s.cq with
      queue := s.cq.queue ++
        (if supervised then (List.finRange 32).flatMap fun j =>
          match s.channel m j with
          | none => []
          | some ch =>
            match verdict j ch with
            | .unchanged _ => []
            | .clear _ => [formed (.channel m j true)]
            | .fault _ => formed (.channel m j false) ::
              (List.finRange 16).filterMap fun k => (s.slot k).bind fun sl =>
                if sl.mod = m ∧ sl.channel = j ∧ sl.phase ≠ .finishing then
                  some (formed (.commandResult sl.control .outputFault))
                else none
        else []) ++
        (List.finRange 16).filterMap fun k => (s.slot k).bind fun sl =>
          if confirms sl && !faults sl then
            some (formed (.commandResult sl.control .executed))
          else none }) ∧
    Frame [.channels, .slots, .cq] s w

/-! ### The evaluation of points -/

/-- A SINGLE point at a sample: the target of its level is dropped when it is the evaluated state, kept
or started as the candidate otherwise, and accepted when its age has reached the pick or drop filter;
nothing else of the record changes (R20, R22, R23, R25). -/
def Obligations.SingleCandidateIsFilteredThenAccepted : Prop :=
  ∀ (e : PointEntry) (r : PointRecord) (level : Bool) (t : Time),
    let target : StateValue := if level then .on else .off
    let filter := if level then e.pickFilter else e.dropFilter
    let start := match r.candidate with
      | some c => if c.target = target then c.start else t
      | none => t
    e.evalSingle r level t =
      if r.evaluated = .known target then { r with candidate := none }
      else if filter ≤ interval start t then
        { r with evaluated := .known target, candidate := none }
      else { r with candidate := some ⟨target, start⟩ }

/-- A PAIR point at a sample, for every filter. The target of the combination is dropped with its transfer
bookkeeping when it is the evaluated state; otherwise it is kept as the candidate, or started as a new one,
which sets open-since when it is FAULT_OPEN from UP or DOWN and, when it is the opposite state, forms the
pending transfer from open-since, or 0 without it. A candidate whose age has reached its filter is accepted:
a pending transfer becomes the last one with its slow flag, every other acceptance stores none (R22, R23, R26,
R29, R30, R32, R33). -/
def Obligations.PairTransferIsMeasuredFromTheOpenRun : Prop :=
  ∀ (e : PointEntry) (r : PointRecord) (front back : Bool) (t : Time),
    let target : StateValue :=
      if front then (if back then .faultBoth else .up) else (if back then .down else .faultOpen)
    let filter :=
      if front then (if back then e.faultFilter else e.pickFilter)
      else (if back then e.dropFilter else e.transitLimit)
    let moved : Prop := r.evaluated = .known .up ∨ r.evaluated = .known .down
    let opposite : Prop := (r.evaluated = .known .up ∧ target = .down) ∨
      (r.evaluated = .known .down ∧ target = .up)
    let run := match r.openSince with
      | some o => min (interval o t) 65535
      | none => 0
    let kept : Prop := r.candidate.map Candidate.target = some target
    let start := match r.candidate with
      | some c => if c.target = target then c.start else t
      | none => t
    let u : PointRecord :=
      if kept then r
      else { r with
        candidate := some ⟨target, t⟩
        openSince := if target = .faultOpen ∧ moved then some t else none
        pendingTransfer := if opposite then some run else none }
    e.evalPair r front back t =
      if r.evaluated = .known target then
        ({ r with candidate := none, openSince := none, pendingTransfer := none }, none)
      else if filter ≤ interval start t then
        match u.pendingTransfer with
        | some x =>
          let slow := decide (e.alarmLimit ≠ 0 ∧ e.alarmLimit < x)
          ({ u with
              evaluated := .known target, candidate := none, openSince := none,
              pendingTransfer := none, lastTransfer := some x, slowTransfer := slow },
            some (x, slow))
        | none => ({ u with evaluated := .known target, candidate := none, openSince := none }, none)
      else (u, none)

/-- A FLASHER point at a sample, by the four steps of R37. The flash filter keeps, drops or starts the level
candidate, and accepts it as an edge when its age has reached the filter (R38). An edge classifies the half
since the last edge, of the level just left, where both exist, only starts the timing where not (R40), and
becomes the last edge. Without an edge the quiet check beyond the maximum confirms the filtered level and
ends timing (R41). A long half confirms the level just left; a short half ends the count and turns FLASHING
into IRREGULAR; an in-range half counts up to N and reaches FLASHING there (R42 to R45). -/
def Obligations.FlasherHalvesAndQuietCheck : Prop :=
  ∀ (e : PointEntry) (r : PointRecord) (level : Bool) (t edge : Time) (h : Nat),
    (let start := match r.levelCandidate with
      | some c => if c.level = level then c.start else t
      | none => t
     e.evalFlasher r level t =
      if r.filteredLevel = some level then e.quietCheck { r with levelCandidate := none } t
      else if e.flashFilter ≤ interval start t then
        let u : PointRecord := { r with filteredLevel := some level, levelCandidate := none }
        let v := match r.lastEdge, r.filteredLevel with
          | some last, some left => e.classifyHalf u left (min (interval last t) 65535)
          | _, _ => u
        { v with lastEdge := some t }
      else e.quietCheck { r with levelCandidate := some ⟨level, start⟩ } t) ∧
    (r.lastEdge = none ∨ r.filteredLevel = none → e.quietCheck r t = r) ∧
    (r.lastEdge = some edge → r.filteredLevel = some level →
      (e.halfMax < interval edge t → e.quietCheck r t = { r with
        evaluated := .known (if level then .lit else .dark), integration := 0,
        lastEdge := none }) ∧
      (interval edge t ≤ e.halfMax → e.quietCheck r t = r)) ∧
    (let stored := if level then { r with lastOnHalf := some h } else { r with lastOffHalf := some h }
     (e.halfMax < h → e.classifyHalf r level h = { stored with
       evaluated := .known (if level then .lit else .dark), integration := 0 }) ∧
     (h < e.halfMin → h ≤ e.halfMax → e.classifyHalf r level h = { stored with
       evaluated := if r.evaluated = .known .flashing then .known .irregular else r.evaluated
       integration := 0 }) ∧
     (e.halfMin ≤ h → h ≤ e.halfMax → e.classifyHalf r level h = { stored with
       evaluated := if min (r.integration + 1) e.target = e.target then .known .flashing
         else r.evaluated
       integration := min (r.integration + 1) e.target }))

/-- Period and duty: the period is the sum of the halves, saturated at 65,535; the duty is the ON half's
share of that period, saturated or not, as a whole percentage rounded down and limited to 100, and lies in 0
to 100 whatever the value that the spec leaves open for a period of 0 (R47, with its worked values). -/
def Obligations.PeriodAndDutyStayInRange : Prop :=
  ∀ x y : Nat,
    periodOf x y = min (x + y) 65535 ∧ dutyOf x y ≤ 100 ∧
    (0 < x + y → x + y ≤ 65535 →
      dutyOf x y * (x + y) ≤ 100 * x ∧ 100 * x < (dutyOf x y + 1) * (x + y)) ∧
    (65535 < x + y → x < 65535 →
      dutyOf x y * 65535 ≤ 100 * x ∧ 100 * x < (dutyOf x y + 1) * 65535) ∧
    (65535 ≤ x → dutyOf x y = 100) ∧
    dutyOf 40000 40000 = 61 ∧ dutyOf 65535 200 = 100 ∧ dutyOf 200 65535 = 0

/-- The evaluation of one point at an image arrival. The sample's raw levels come from the arriving image
or, for a contact on another module, from that module's latest image; the invert flag turns a level over
(R3). The algorithm of the point's class gives the new record (R9), from a record without the working
fields of an earlier period of deliverability (log entry 27). Then, in order, the POINT record of a changed
reported view, the CSU's notice of a changed evaluated state, and the trace offer of levels that differ
from the last offered ones (R10, R14, R163). At an image that waited in a bank while its module went SUSPECT
a SINGLE or PAIR point accepts nothing: it is evaluated as with filters that no interval reaches, and all
else is as at any arrival (R35, R9). How the two rules meet there is the model's choice (log entry 29). A
point that is not deliverable is lost at the sample time (R6). -/
def Obligations.ArrivalEvaluatesAndHandsOnOnePoint : Prop :=
  ∀ (s : State) (arr : BankImage) (p : PointNo),
    let e := s.ts.active.pointEntry p
    let old := s.pointRec p
    let start : PointRecord :=
      if old.stale = true then { old with
        candidate := none, openSince := none, pendingTransfer := none, filteredLevel := none,
        levelCandidate := none, lastEdge := none, lastOnHalf := none, lastOffHalf := none,
        integration := 0, stale := false }
      else old
    let raw (c : Contact) (x : Bool) : Prop :=
      (c.mod = arr.mod ∧ x = arr.levels.getLsbD c.contact) ∨
      (c.mod ≠ arr.mod ∧ ∃ image, (s.moduleRec c.mod).image = some image ∧
        x = image.levels.getLsbD c.contact)
    let handedOn (new : PointRecord) (extra : PointExtra) (levels : TraceLevels) : State :=
      let stored := s.setPointRec p new
      let queued :=
        if (new.reported, new.substitute.isSome) ≠ (old.reported, old.substitute.isSome) ∧
            e.report = true then
          stored.hand arr.time (.point p new.reported new.substitute.isSome extra)
        else stored
      let noticed :=
        if new.evaluated ≠ old.evaluated then queued.csuNotice p new.evaluated else queued
      let offered := noticed.handTrace arr.time p levels
      if s.pe.tracedPoint = some p ∧ s.pe.lastOffered ≠ some levels then
        { offered with pe := { offered.pe with lastOffered := some levels } }
      else noticed
    let judged : PointEntry :=
      if (s.moduleRec arr.mod).state = .suspect then { e with
        pickFilter := 2 ^ 32, dropFilter := 2 ^ 32, transitLimit := 2 ^ 32, faultFilter := 2 ^ 32 }
      else e
    (s.pointDeliverable e = true →
      (∀ a, e.cls = .single → raw e.a a → s.arriveAt arr p =
        handedOn (judged.evalSingle start (a != e.a.invert) arr.time) .none ⟨a, none⟩) ∧
      (∀ a, e.cls = .flasher → raw e.a a →
        let new := e.evalFlasher start (a != e.a.invert) arr.time
        let extra : PointExtra :=
          match new.substitute, new.evaluated, new.lastOnHalf, new.lastOffHalf with
          | none, .known .flashing, some x, some y => .period (periodOf x y) (dutyOf x y)
          | _, _, _, _ => .none
        s.arriveAt arr p = handedOn new extra ⟨a, none⟩) ∧
      (∀ a b, e.cls = .pair → raw e.a a → raw e.b b →
        let found := judged.evalPair start (a != e.a.invert) (b != e.b.invert) arr.time
        let extra : PointExtra :=
          match found.2 with
          | some (x, slow) => .transfer x slow
          | none => .none
        s.arriveAt arr p = handedOn found.1 extra ⟨a, some b⟩)) ∧
    (s.pointDeliverable e = false → s.arriveAt arr p = s.losePoint p arr.time) ∧
    (s.pointDeliverable e = true ↔ ∀ c, c ∈ e.contacts →
      ((s.moduleRec c.mod).state = .active ∨ (s.moduleRec c.mod).state = .suspect) ∧
        (s.moduleRec c.mod).wetting = false)

/-- An image arrival frees its bank, evaluates every defined point with a contact on the module once, in
ascending number, and hands the AGE its arrival (R9, R11). A point whose contact's module has no latest
image forms no sample and stays (log entry 14); one that is not deliverable loses its state to the loss
cause, or is left as it is when it has that cause already (log entry 27); no other point changes. While the
arriving image's module is SUSPECT a deliverable SINGLE or PAIR point keeps its evaluated state (R35; how R35
and R9 meet there is the model's choice, log entry 29). While the hand-over of an earlier arrival is
unfinished, no image is taken (R58, log entry 11). -/
def Obligations.ImageArrivalEvaluatesThePointsOfItsModule : Prop :=
  ∀ (s : State) (arr : BankImage) (rest : List BankImage), s.Running → s.Canonical →
    s.slc.banks = arr :: rest →
    ((∃ h, h ∈ s.age.handOvers ∧ h.arrival = true) → exec .imageArrival s = .next s) ∧
    ((∀ h, h ∈ s.age.handOvers → h.arrival = false) →
      let points := (List.finRange 1024).filter fun p =>
        (s.ts.active.pointEntry p).usesModule arr.mod
      let u := points.foldl (fun s p => s.arriveAt arr p) s
      let w := State.ageArrival { u with slc := { s.slc with banks := rest } } arr.mod arr.time
      exec .imageArrival s = .next w.transmitNext ∧
      w.slc = { s.slc with banks := rest } ∧
      (∀ p, let e := s.ts.active.pointEntry p
        (e.usesModule arr.mod = false → w.pointRec p = s.pointRec p) ∧
        (e.usesModule arr.mod = true → s.pointDeliverable e = true →
          (s.moduleRec arr.mod).state = .suspect → e.cls ≠ .flasher →
          (w.pointRec p).evaluated = (s.pointRec p).evaluated) ∧
        (e.usesModule arr.mod = true → s.pointDeliverable e = true →
          (∀ v, s.evaluate arr e (s.pointRec p) = some v → w.pointRec p = v.record) ∧
          (s.evaluate arr e (s.pointRec p) = none → w.pointRec p = s.pointRec p) ∧
          ((∀ c, c ∈ e.contacts →
              c.mod = arr.mod ∨ (s.moduleRec c.mod).image ≠ none) →
            s.evaluate arr e (s.pointRec p) ≠ none)) ∧
        (e.usesModule arr.mod = true → s.pointDeliverable e = false →
          w.pointRec p =
            if (s.pointRec p).evaluated = .unknown (s.lossCause e) then (s.pointRec p).lostAgain
            else (s.pointRec p).loseTo (s.lossCause e))) ∧
      w.pe.tracedPoint = s.pe.tracedPoint ∧
      Frame [.slc, .pe, .groups, .age, .channels, .slots, .cq] s w)

/-! ### Groups -/

/-- Which groups a hand-over evaluates, in ascending number, and what it comes to. An arrival evaluates
every defined group with a member on the arriving module; a SUBSTITUTE, a RELEASE and a module notice every
defined group with a member in the handed set; a notice also makes absent the no-match start of every other
defined group none of whose members is deliverable (R57). An evaluation stores the group's record and hands
a GROUP record of a reported group whose code changed (R58, R63). That the AGE finishes a hand-over within
the event that makes it, unless its pace defers it, is the model's choice (log entry 11). -/
def Obligations.HandOversEvaluateTheirGroups : Prop :=
  ∀ (s : State) (t : Time),
    let entry (g : GroupNo) := s.ts.active.groupEntry g
    let defined (g : GroupNo) : Bool := decide ((entry g).memberCount ≠ 0)
    let clear (s : State) (g : GroupNo) : State :=
      s.setGroupRec g { s.groupRec g with noMatchStart := none }
    let inSet (set : List PointNo) (g : GroupNo) : Bool :=
      (entry g).memberList.any fun p => decide (p ∈ set)
    (s.Canonical → s.AgeInStep →
      (∀ m, s.ageArrival m t =
        ((List.finRange 128).filter fun g => defined g &&
          (entry g).memberList.any fun p => (s.ts.active.pointEntry p).usesModule m).foldl
            (State.evaluateGroup true t) s) ∧
      (∀ set, s.ageChange set t =
        ((List.finRange 128).filter fun g => defined g && inSet set g).foldl
          (State.evaluateGroup false t) s) ∧
      (∀ set, s.ageNotice set t =
        ((List.finRange 128).filter fun g => defined g && !inSet set g &&
          (entry g).memberList.all fun p =>
            !s.pointDeliverable (s.ts.active.pointEntry p)).foldl clear
          (((List.finRange 128).filter fun g => defined g && inSet set g).foldl
            (State.evaluateGroup false t) s))) ∧
    (∀ g arrival,
      let e := entry g
      let r' := s.ts.active.judgeGroup e (s.groupRec g)
        (e.memberList.map fun p => (s.pointRec p).reported) arrival t
      s.evaluateGroup arrival t g =
        if r'.code ≠ (s.groupRec g).code ∧ e.report = true then
          (s.setGroupRec g r').hand t (.group g r'.code)
        else s.setGroupRec g r') ∧
    (∀ (h : HandOver) (pace : List Nat), s.age.pace = 0 :: pace →
      s.handOver h = { s with age := { handOvers := s.age.handOvers ++ [h], pace := pace } }) ∧
    (∀ (h : HandOver) (g : GroupNo) (groups : List GroupNo) (rest : List HandOver),
      s.age.handOvers = h :: rest → h.groups = g :: groups →
      s.ageTurn = { s.evaluateGroup h.arrival h.time g with
        age := { s.age with handOvers := { h with groups := groups } :: rest } }) ∧
    s.ageFinish = { s.age.handOvers.foldl (fun u h => h.clears.foldl clear
        (h.groups.foldl (State.evaluateGroup h.arrival h.time) u)) s with
      age := { s.age with handOvers := [] } }

/-- The evaluation of one group: UNKNOWN with the cause of the first UNKNOWN member; else the aspect code
of the first pattern of its range that matches; else, at an arrival, the settle rule; else unchanged
(R59 to R62). The range is the indexes from the first pattern index to that plus the pattern count minus 1,
ascending, and the members are those of positions 1 to the member count (R54). A pattern matches when at
every position of a member its required state is ANY or equals the member's state (R60). -/
def Obligations.GroupTakesUnknownMatchOrSettles : Prop :=
  ∀ (t : Tables) (e : GroupEntry) (r : GroupRecord) (states : List PointState) (arrival : Bool)
    (now : Time),
    let range : List PatternNo := (List.finRange 512).filter fun i =>
      e.firstPattern.val ≤ i.val && i.val < e.firstPattern.val + e.patternCount
    let fits (i : PatternNo) : Prop := ∀ (k : Nat) (_ : k < 6) (state : PointState),
      states[k]? = some state → (t.patternEntry i).required[k] = none ∨
        ∃ v, (t.patternEntry i).required[k] = some v ∧ state = .known v
    e.memberList = e.members.toList.take e.memberCount.val ∧
    (∀ before cause after, states = before ++ .unknown cause :: after →
      (∀ x, x ∈ before → ∃ v, x = .known v) →
      t.judgeGroup e r states arrival now = { code := .unknown cause, noMatchStart := none }) ∧
    ((∀ x, x ∈ states → ∃ v, x = .known v) →
      (∀ before i after, range = before ++ i :: after → (∀ k, k ∈ before → ¬ fits k) → fits i →
        t.judgeGroup e r states arrival now =
          { code := .code (t.patternEntry i).aspect, noMatchStart := none }) ∧
      ((∀ k, k ∈ range → ¬ fits k) →
        (arrival = false → t.judgeGroup e r states arrival now = r) ∧
        (arrival = true →
          (∀ start, r.noMatchStart = some start →
            t.judgeGroup e r states arrival now = { r with
              code := if e.settleTime ≤ interval start now then .code 0 else r.code }) ∧
          (r.noMatchStart = none →
            t.judgeGroup e r states arrival now =
              { code := if e.settleTime = 0 then .code 0 else r.code,
                noMatchStart := some now }))))

/-! ### The Change Queue -/

/-- A record handed below 256 joins the tail; at 256 the queue and the record are discarded, the counter
rises, an OVERFLOW record stands alone and the refresh restarts. A TRACE record at or above the watermark
is refused and sets the trace-gap flag; below it takes the flag and clears it (R124, R126, R127). -/
def Obligations.QueueTakesRefusesOrOverflows : Prop :=
  ∀ (s : State) (t : Time) (content : RecordContent) (p : PointNo) (levels : TraceLevels),
    (s.cq.queue.length < 256 → s.hand t content = { s with cq := { s.cq with
      queue := s.cq.queue ++
        [{ refresh := false, deskTime := t + s.tb.offset, content := content }] } }) ∧
    (256 ≤ s.cq.queue.length → s.hand t content = { s with cq := { s.cq with
      queue := [{ refresh := false, deskTime := s.tb.elapsed + s.tb.offset, content := .overflow }]
      queueOverflows := bump s.cq.queueOverflows
      cursor := some (.points 0) } }) ∧
    (s.system.watermark ≤ s.cq.queue.length →
      s.handTrace t p levels = { s with cq := { s.cq with traceGap := true } }) ∧
    (s.cq.queue.length < s.system.watermark → s.handTrace t p levels = { s with cq := { s.cq with
      queue := s.cq.queue ++ [{ refresh := false, deskTime := t + s.tb.offset,
                                content := .trace p levels s.cq.traceGap }]
      traceGap := false } })

/-! ### Layouts -/

/-- The layouts of the table entries, whatever the two bytes of a numeric field say. Every entry is sent
with its fields in the order of its defining table, the Point Table entry in the order of R1 and the System
Record in that of R149, and its enumerated fields by the codes of R168. An entry within its
ranges is read back from its TABLE_WRITE form, unclamped, and the form has the size of its table; a field
outside its range is read as the nearer limit of the range, a desk-silence time of 1 to 249 as 0 and of 250
to 499 as 500, and the entry is then clamped (R150, R151, R168, R170). An entry is refused just when an
enumerated byte is outside its list, UNKNOWN among the states and ANY where a pattern does not require it
(check 4 of R150). The point number of an absent proving
point is sent as 0 and ignored when it is read (log entry 17). -/
def Obligations.TableEntriesAreReadWithinTheirRanges : Prop :=
  ([Use.unused, .input, .output].map Use.code = [0, 1, 2] ∧
    [PointClass.none, .single, .pair, .flasher].map PointClass.code = [0, 1, 2, 3] ∧
    [CommandMode.pulse, .set, .clear, .flash].map CommandMode.wire = [0, 1, 2, 3] ∧
    [some .off, some .on, some .down, some .up, some .faultOpen, some .faultBoth, some .dark, some .lit,
      some .flashing, some .irregular, none].map requiredCode = [1, 2, 3, 4, 5, 6, 7, 8, 9, 10, 15] ∧
    flag false = [0] ∧ flag true = [1] ∧
    (∀ c : Contact, c.bytes = u16 c.mod ++ u16 c.contact ++ flag c.invert) ∧
    (∀ e : ModuleEntry, e.bytes = u8 e.use.code ++ u16 e.address) ∧
    (∀ e : PointEntry, e.bytes =
      u8 e.cls.code ++ u16 e.a.mod ++ u16 e.a.contact ++ flag e.a.invert ++
        u16 e.b.mod ++ u16 e.b.contact ++ flag e.b.invert ++ flag e.report ++
        u16 e.pickFilter ++ u16 e.dropFilter ++ u16 e.transitLimit ++ u16 e.faultFilter ++
        u16 e.alarmLimit ++ u16 e.flashFilter ++ u16 e.halfMin ++ u16 e.halfMax ++ u16 e.target) ∧
    (∀ e : GroupEntry, e.bytes = u16 e.memberCount ++ (e.members.toList.flatMap fun p => u16 p.val) ++
      u16 e.firstPattern ++ u16 e.patternCount ++ u16 e.settleTime ++ flag e.report) ∧
    (∀ e : PatternEntry, e.bytes =
      (e.required.toList.flatMap fun r => u8 (requiredCode r)) ++ u16 e.aspect) ∧
    (∀ e : CommandEntry, e.bytes =
      flag e.defined ++ u16 e.mod ++ u16 e.channel ++ u8 e.mode.wire ++ u16 e.pulseTime ++
        flag e.proving.isSome ++ u16 ((e.proving.map Fin.val).getD 0) ++ u8 e.expected.code ++
        u16 e.provingTime ++ flag e.endOnProof) ∧
    (∀ e : SystemRecord, e.bytes =
      u16 e.scanPeriod ++ u16 e.replyWindow ++ u16 e.retries ++ u16 e.lossThreshold ++
        u16 e.recoveryCount ++ u16 e.settleTime ++ u16 e.silenceTime ++ u16 e.idleInterval ++
        u16 e.watermark)) ∧
  ((∀ e : ModuleEntry, e.inRange →
      ModuleEntry.parse e.bytes = some (e, false) ∧ e.bytes.length = 3) ∧
    (∀ e : PointEntry, e.inRange →
      PointEntry.parse e.bytes = some (e, false) ∧ e.bytes.length = 30) ∧
    (∀ e : GroupEntry, e.inRange →
      GroupEntry.parse e.bytes = some (e, false) ∧ e.bytes.length = 21) ∧
    (∀ e : PatternEntry, e.inRange →
      PatternEntry.parse e.bytes = some (e, false) ∧ e.bytes.length = 8) ∧
    (∀ e : CommandEntry, e.inRange →
      CommandEntry.parse e.bytes = some (e, false) ∧ e.bytes.length = 15) ∧
    (∀ e : SystemRecord, e.inRange = true →
      SystemRecord.parse e.bytes = some (e, false) ∧ e.bytes.length = 18)) ∧
  (∀ b : List Byte,
    let code (i : Nat) : Nat := (b.getD i 0).toNat
    let named (n : Nat) : Prop := 1 ≤ n ∧ n ≤ 10
    (ModuleEntry.parse b = none ↔ 3 ≤ code 0) ∧
    (PointEntry.parse b = none ↔ 4 ≤ code 0 ∨ 2 ≤ code 5 ∨ 2 ≤ code 10 ∨ 2 ≤ code 11) ∧
    (GroupEntry.parse b = none ↔ 2 ≤ code 20) ∧
    (PatternEntry.parse b = none ↔ ∃ k, k < 6 ∧ ¬ named (code k) ∧ code k ≠ 15) ∧
    (CommandEntry.parse b = none ↔
      2 ≤ code 0 ∨ 4 ≤ code 5 ∨ 2 ≤ code 8 ∨ ¬ named (code 11) ∨ 2 ≤ code 14) ∧
    SystemRecord.parse b ≠ none) ∧
  (∀ (use : Use) (n : Nat), n < 65536 →
    ModuleEntry.parse (u8 use.code ++ u16 n) =
      some ({ use := use, address := nearest 1 62 n }, decide (n < 1 ∨ 62 < n))) ∧
  (∀ e : PointEntry, e.sendable → ∃ clamped,
    PointEntry.parse e.bytes = some (e.limited, clamped) ∧ (clamped = false ↔ e.inRange)) ∧
  (∀ (m n : Nat) (invert : Bool), m < 65536 → n < 65536 → ∃ c clamped,
    Contact.parse (u16 m ++ u16 n ++ flag invert) = some (c, clamped) ∧
      c.mod.val = min m 31 ∧ c.contact.val = min n 63 ∧ c.invert = invert ∧
      (clamped = true ↔ 31 < m ∨ 63 < n)) ∧
  (∀ (count first patterns settle : Nat) (members : List Nat) (report : Bool),
    count < 65536 → first < 65536 → patterns < 65536 → settle < 65536 → members.length = 6 →
    (∀ x, x ∈ members → x < 65536) → ∃ e clamped,
    GroupEntry.parse (u16 count ++ members.flatMap u16 ++ u16 first ++ u16 patterns ++ u16 settle ++
        flag report) = some (e, clamped) ∧
      e.memberCount.val = min count 6 ∧
      e.members.toList.map Fin.val = members.map (fun x => min x 1023) ∧
      e.firstPattern.val = min first 511 ∧ e.patternCount = nearest 1 16 patterns ∧
      e.settleTime = min settle 5000 ∧ e.report = report ∧
      (clamped = true ↔ 6 < count ∨ (∃ x, x ∈ members ∧ 1023 < x) ∨ 511 < first ∨
        patterns < 1 ∨ 16 < patterns ∨ 5000 < settle)) ∧
  (∀ (required : Vector (Option StateValue) 6) (aspect : Nat), aspect < 65536 → ∃ e clamped,
    PatternEntry.parse ((required.toList.map requiredCode).flatMap u8 ++ u16 aspect) =
      some (e, clamped) ∧
      e.required = required ∧ e.aspect.val = nearest 1 15 aspect ∧
      (clamped = true ↔ aspect < 1 ∨ 15 < aspect)) ∧
  (∀ (e : CommandEntry) (m n pulse point proving : Nat) (present : Bool),
    m < 65536 → n < 65536 → pulse < 65536 → point < 65536 → proving < 65536 → ∃ f clamped,
    CommandEntry.parse (flag e.defined ++ u16 m ++ u16 n ++ u8 e.mode.wire ++ u16 pulse ++
        flag present ++ u16 point ++ u8 e.expected.code ++ u16 proving ++ flag e.endOnProof) =
      some (f, clamped) ∧
      f.defined = e.defined ∧ f.mod.val = min m 31 ∧ f.channel.val = min n 31 ∧ f.mode = e.mode ∧
      f.pulseTime = nearest 50 5000 pulse ∧
      f.proving.map Fin.val = (if present then some (min point 1023) else none) ∧
      f.expected = e.expected ∧ f.provingTime = nearest 100 60000 proving ∧
      f.endOnProof = e.endOnProof ∧
      (clamped = true ↔ 31 < m ∨ 31 < n ∨ pulse < 50 ∨ 5000 < pulse ∨
        (present = true ∧ 1023 < point) ∨ proving < 100 ∨ 60000 < proving)) ∧
  ∀ e : SystemRecord, (∀ x, x ∈ [e.scanPeriod, e.replyWindow, e.retries, e.lossThreshold,
      e.recoveryCount, e.settleTime, e.silenceTime, e.idleInterval, e.watermark] → x < 65536) →
    ∃ clamped, SystemRecord.parse e.bytes = some (
      { scanPeriod := nearest 4 50 e.scanPeriod
        replyWindow := nearest 100 2000 e.replyWindow
        retries := nearest 0 3 e.retries
        lossThreshold := nearest 1 15 e.lossThreshold
        recoveryCount := nearest 1 15 e.recoveryCount
        settleTime := nearest 20 1000 e.settleTime
        silenceTime :=
          if e.silenceTime < 250 then 0
          else if e.silenceTime < 500 then 500
          else if 30000 < e.silenceTime then 30000 else e.silenceTime
        idleInterval := nearest 200 5000 e.idleInterval
        watermark := nearest 16 248 e.watermark }, clamped) ∧
      (clamped = false ↔ e.inRange = true)

/-! ### Invariants -/

/-- The model's choice (log entry 18): numbered records are held in a canonical form. Every step keeps the
canonical form of every table. -/
def Obligations.EveryStepKeepsTheCanonicalForm : Prop :=
  ∀ s t : State, s.Canonical → step s = .next t → t.Canonical

/-- Every step keeps the holding places within what they can hold: the law of queue capacity and its
like (R124, R73, R136, R141, R131). An AGE that finishes every hand-over within its event goes on doing so,
which is the model's own (log entry 11). -/
def Obligations.EveryStepKeepsTheCapacities : Prop :=
  ∀ s t : State, step s = .next t →
    (s.WithinCapacity → t.WithinCapacity) ∧ (s.AgeInStep → t.AgeInStep)

/-- Every step keeps the law of the counters (R89). No command but COUNTER_CLEAR and a reset lets a counter
fall; a counter that is due to rise rises by 1, and one event raises each counter but QUEUE_OVERFLOWS at most
once (R89, R90). -/
def Obligations.EveryStepKeepsTheCountersBounded : Prop :=
  (∀ s t : State, s.CountersBounded → step s = .next t → t.CountersBounded) ∧
  ∀ (c : Instr) (s t : State), c ≠ .counterClear → (∀ key, c ≠ .powerOnReset key) →
    (∀ key, c ≠ .restartReset key) → exec c s = .next t →
    let rises (a b : Nat) : Prop := b = a ∨ (a < 65535 ∧ b = a + 1)
    (∀ m, rises (s.moduleRec m).replyTimeouts (t.moduleRec m).replyTimeouts ∧
      rises (s.moduleRec m).crcErrors (t.moduleRec m).crcErrors ∧
      rises (s.moduleRec m).formatErrors (t.moduleRec m).formatErrors ∧
      rises (s.moduleRec m).missedScans (t.moduleRec m).missedScans ∧
      rises (s.moduleRec m).lossEvents (t.moduleRec m).lossEvents) ∧
    rises s.slc.cycleOverruns t.slc.cycleOverruns ∧
    rises s.dli.crcErrors t.dli.crcErrors ∧ rises s.dli.rxOverruns t.dli.rxOverruns ∧
    rises s.dli.silenceEvents t.dli.silenceEvents ∧
    s.cq.queueOverflows ≤ t.cq.queueOverflows ∧
    t.cq.queueOverflows ≤ max s.cq.queueOverflows 65535

/-- Every step keeps the law of the ACTIVE bank and what mode, key and pending commit say of each other
(R153, R154, R156, R158). -/
def Obligations.EveryStepKeepsTheModeSound : Prop :=
  ∀ s t : State, s.ModeSound → step s = .next t →
    t.ModeSound ∧
    (s.ts.mode = .operate → t.ts.mode ≠ .unconfigured → t.ts.active = s.ts.active)

/-- Every step keeps the law of command slots and the fields of each slot's phase (R104, R106). -/
def Obligations.EveryStepKeepsTheSlotsSound : Prop :=
  ∀ s t : State, s.SlotsSound → step s = .next t → t.SlotsSound

/-- Every step keeps the law of deliverability (R6). -/
def Obligations.EveryStepKeepsTheDeliverabilityLaw : Prop :=
  ∀ s t : State, s.ModeSound → s.DeliverabilityLaw → step s = .next t → t.DeliverabilityLaw

/-- Every step keeps the law of measured times and the law of the integration count (R45, R47). -/
def Obligations.EveryStepKeepsTheMeasurementsBounded : Prop :=
  ∀ s t : State, s.MeasurementsBounded → step s = .next t → t.MeasurementsBounded

/-- The state after reset meets every invariant. -/
def Obligations.ResetMeetsEveryInvariant : Prop :=
  State.reset.Canonical ∧ State.reset.WithinCapacity ∧ State.reset.CountersBounded ∧
    State.reset.ModeSound ∧ State.reset.SlotsSound ∧ State.reset.DeliverabilityLaw ∧
    State.reset.MeasurementsBounded ∧ State.reset.AgeInStep
end

