-- ==== Sys2Proof/Laws/Table.lean ====
section
/-! SUPPORT. The laws of numbered tables: what reading gives after each way of writing, and that every
way of writing keeps or gives the canonical form. -/

namespace Sys2Proof.Table

variable {n : Nat} {α : Type}

@[simp] theorem get_nil (d : α) (i : Fin n) : get d [] i = d := rfl

theorem get_eq_of_not_mem (d : α) (t : Table n α) (i : Fin n) (h : i ∉ keys t) : get d t i = d := by
  induction t with
  | nil => rfl
  | cons e t ih =>
    simp only [keys, List.map_cons, List.mem_cons, not_or] at h
    simp only [get, Ne.symm h.1, if_false]
    exact ih h.2

@[simp] theorem keys_erase (t : Table n α) (i : Fin n) :
    keys (erase t i) = (keys t).filter fun k => k ≠ i := by
  simp [keys, erase, List.filter_map, Function.comp_def]

theorem get_erase_self (d : α) (t : Table n α) (i : Fin n) : get d (erase t i) i = d :=
  get_eq_of_not_mem d _ i (by simp)

theorem get_erase_ne (d : α) (t : Table n α) {i j : Fin n} (h : j ≠ i) :
    get d (erase t i) j = get d t j := by
  induction t with
  | nil => rfl
  | cons e t ih =>
    obtain ⟨k, v⟩ := e
    by_cases hk : k = i
    · subst hk
      simpa [erase, get, Ne.symm h] using ih
    · simp only [erase, List.filter_cons, ne_eq, hk, not_false_eq_true, decide_true, if_true, get]
      split
      · rfl
      · exact ih

theorem get_insert_self (d : α) (t : Table n α) (i : Fin n) (v : α) (h : i ∉ keys t) :
    get d (insert i v t) i = v := by
  induction t with
  | nil => simp [insert, get]
  | cons e t ih =>
    simp only [keys, List.map_cons, List.mem_cons, not_or] at h
    simp only [insert]
    split
    · simp [get]
    · simp only [get, Ne.symm h.1, if_false]
      exact ih h.2

theorem get_insert_ne (d : α) (t : Table n α) {i j : Fin n} (v : α) (h : j ≠ i) :
    get d (insert i v t) j = get d t j := by
  induction t with
  | nil => simp [insert, get, Ne.symm h]
  | cons e t ih =>
    simp only [insert]
    split
    · simp [get, Ne.symm h]
    · simp only [get]
      split
      · rfl
      · exact ih

/-- Reading an entry just written gives the value written. -/
@[simp] theorem get_set_self [DecidableEq α] (d : α) (t : Table n α) (i : Fin n) (v : α) :
    get d (set d t i v) i = v := by
  unfold set
  split
  · next h => rw [get_erase_self, h]
  · exact get_insert_self d _ i v (by simp)

/-- Writing an entry leaves every other one alone. -/
theorem get_set_ne [DecidableEq α] (d : α) (t : Table n α) {i j : Fin n} (v : α) (h : j ≠ i) :
    get d (set d t i v) j = get d t j := by
  unfold set
  split
  · exact get_erase_ne d t h
  · rw [get_insert_ne d _ v h, get_erase_ne d t h]

/-- Reading after a write. -/
theorem get_set [DecidableEq α] (d : α) (t : Table n α) (i j : Fin n) (v : α) :
    get d (set d t i v) j = if j = i then v else get d t j := by
  split
  · next h => rw [h, get_set_self]
  · next h => exact get_set_ne d t v h

theorem mem_keys_insert (i j : Fin n) (v : α) (t : Table n α) :
    j ∈ keys (insert i v t) ↔ j = i ∨ j ∈ keys t := by
  induction t with
  | nil => simp [insert, keys]
  | cons e t ih =>
    simp only [insert]
    split
    · simp [keys]
    · simp only [keys, List.map_cons, List.mem_cons] at ih ⊢
      rw [ih]
      tauto

/-- The numbers that a table lists after a write. -/
theorem mem_keys_set [DecidableEq α] (d : α) (t : Table n α) (i j : Fin n) (v : α) :
    j ∈ keys (set d t i v) ↔ (j = i ∧ v ≠ d) ∨ (j ≠ i ∧ j ∈ keys t) := by
  unfold set
  split
  · next h => simp [h, and_comm]
  · next h =>
    rw [mem_keys_insert]
    simp only [keys_erase, List.mem_filter, decide_eq_true_eq]
    tauto

theorem insert_pairwise (i : Fin n) (v : α) (t : Table n α) (hi : i ∉ keys t)
    (h : (keys t).Pairwise (· < ·)) : (keys (insert i v t)).Pairwise (· < ·) := by
  induction t with
  | nil => simp [insert, keys]
  | cons e t ih =>
    simp only [insert]
    simp only [keys, List.map_cons, List.mem_cons, not_or, List.pairwise_cons] at h hi
    split
    · next hlt =>
      simp only [keys, List.map_cons, List.pairwise_cons, List.mem_cons]
      refine ⟨?_, h⟩
      rintro k (rfl | hk)
      · exact hlt
      · exact lt_trans hlt (h.1 k hk)
    · next hlt =>
      simp only [keys, List.map_cons, List.pairwise_cons]
      refine ⟨?_, ih hi.2 h.2⟩
      intro k hk
      rcases (mem_keys_insert i k v t).1 hk with rfl | hk
      · exact lt_of_le_of_ne (not_lt.1 hlt) (Ne.symm hi.1)
      · exact h.1 k hk

theorem mem_insert (i : Fin n) (v : α) (t : Table n α) (e : Fin n × α) :
    e ∈ insert i v t ↔ e = (i, v) ∨ e ∈ t := by
  induction t with
  | nil => simp [insert]
  | cons f t ih =>
    simp only [insert]
    split
    · simp
    · simp only [List.mem_cons, ih]
      tauto

theorem wf_iff [DecidableEq α] (d : α) (t : Table n α) :
    wf d t = true ↔ (keys t).Pairwise (· < ·) ∧ ∀ e ∈ t, e.2 ≠ d := by
  simp [wf]

theorem wf_erase [DecidableEq α] (d : α) (t : Table n α) (i : Fin n) (h : wf d t) :
    wf d (erase t i) := by
  rw [wf_iff] at h ⊢
  refine ⟨?_, ?_⟩
  · rw [keys_erase]
    exact h.1.sublist (List.filter_sublist)
  · intro e he
    exact h.2 e (List.mem_of_mem_filter he)

/-- Writing an entry keeps the canonical form. -/
theorem wf_set [DecidableEq α] (d : α) (t : Table n α) (i : Fin n) (v : α) (h : wf d t) :
    wf d (set d t i v) := by
  unfold set
  split
  · exact wf_erase d t i h
  · next hv =>
    have he := wf_erase d t i h
    rw [wf_iff] at he ⊢
    refine ⟨insert_pairwise i v _ (by simp) he.1, ?_⟩
    intro e hm
    rcases (mem_insert i v _ e).1 hm with rfl | hm
    · exact hv
    · exact he.2 e hm

@[simp] theorem wf_nil [DecidableEq α] (d : α) : wf d ([] : Table n α) = true := by simp [wf, keys]

theorem keys_tabulate [DecidableEq α] (d : α) (f : Fin n → α) :
    keys (tabulate d f) = (List.finRange n).filter fun i => f i ≠ d := by
  simp only [keys, tabulate, List.map_filterMap]
  rw [← List.filterMap_eq_filter]
  congr 1
  funext i
  by_cases h : f i = d <;> simp [h, Option.guard]

/-- A tabulated table reads as the function it was made from. -/
@[simp] theorem get_tabulate [DecidableEq α] (d : α) (f : Fin n → α) (i : Fin n) :
    get d (tabulate d f) i = f i := by
  have key : ∀ l : List (Fin n), l.Nodup → i ∈ l →
      get d (l.filterMap fun i => if f i = d then none else some (i, f i)) i = f i := by
    intro l
    induction l with
    | nil => intro _ h; simp at h
    | cons j l ih =>
      intro hn hm
      rw [List.nodup_cons] at hn
      by_cases hj : j = i
      · subst hj
        by_cases hd : f j = d
        · simp only [List.filterMap_cons, hd, if_true]
          apply get_eq_of_not_mem
          simp only [keys, List.mem_map, List.mem_filterMap]
          rintro ⟨e, ⟨k, hk, he⟩, rfl⟩
          split at he
          · simp at he
          · simp only [Option.some.injEq] at he
            subst he
            exact hn.1 hk
        · simp [hd, get]
      · have hm' : i ∈ l := by
          rcases List.mem_cons.1 hm with h | h
          · exact absurd h.symm hj
          · exact h
        by_cases hd : f j = d
        · simpa [List.filterMap_cons, hd] using ih hn.2 hm'
        · simpa [List.filterMap_cons, hd, get, hj] using ih hn.2 hm'
  exact key _ (List.nodup_finRange n) (List.mem_finRange i)

/-- A tabulated table is in canonical form. -/
@[simp] theorem wf_tabulate [DecidableEq α] (d : α) (f : Fin n → α) :
    wf d (tabulate d f) = true := by
  rw [wf_iff, keys_tabulate]
  refine ⟨(List.pairwise_lt_finRange n).sublist List.filter_sublist, ?_⟩
  intro e he
  simp only [tabulate, List.mem_filterMap] at he
  obtain ⟨i, _, h⟩ := he
  split at h
  · simp at h
  · next hd =>
    simp only [Option.some.injEq] at h
    subst h
    exact hd

theorem foldl_set_get [DecidableEq α] (d : α) (g : Fin n → α) (l : List (Fin n)) (acc : Table n α)
    (i : Fin n) :
    get d (l.foldl (fun acc j => set d acc j (g j)) acc) i =
      if i ∈ l then g i else get d acc i := by
  induction l generalizing acc with
  | nil => simp
  | cons j l ih =>
    rw [List.foldl_cons, ih]
    by_cases hi : i ∈ l
    · simp [hi]
    · by_cases hj : i = j
      · subst hj; simp [hi]
      · simp [hi, hj, get_set_ne d acc (g j) hj]

theorem foldl_set_wf [DecidableEq α] (d : α) (g : Fin n → α) (l : List (Fin n)) (acc : Table n α)
    (h : wf d acc) : wf d (l.foldl (fun acc j => set d acc j (g j)) acc) := by
  induction l generalizing acc with
  | nil => exact h
  | cons j l ih => exact ih _ (wf_set d acc j (g j) h)

/-- An updated table reads as the image of the old one, for an image that keeps the empty entry. -/
theorem get_update [DecidableEq α] (d : α) (f : Fin n → α → α) (hf : ∀ i, f i d = d)
    (t : Table n α) (i : Fin n) : get d (update d f t) i = f i (get d t i) := by
  unfold update
  rw [foldl_set_get d (fun j => f j (get d t j))]
  split
  · rfl
  · next h => rw [get_eq_of_not_mem d t i h, hf, get_nil]

/-- An updated table is in canonical form. -/
@[simp] theorem wf_update [DecidableEq α] (d : α) (f : Fin n → α → α) (t : Table n α) :
    wf d (update d f t) = true :=
  foldl_set_wf d (fun j => f j (get d t j)) _ [] (wf_nil d)

end Sys2Proof.Table
end

