-- ==== Sys2Proof/Laws/State.lean ====
section
/-! SUPPORT. What each update of the state does to each field, so that no later proof unfolds a record
update, and what reading one numbered record gives after writing another. -/

namespace Sys2Proof.Machine

variable (s : State)

@[simp] theorem State.setModuleRec_tb (m : ModuleNo) (r : ModuleRec) :
    (s.setModuleRec m r).tb = s.tb := rfl
@[simp] theorem State.setModuleRec_ts (m : ModuleNo) (r : ModuleRec) :
    (s.setModuleRec m r).ts = s.ts := rfl
@[simp] theorem State.setModuleRec_slc (m : ModuleNo) (r : ModuleRec) :
    (s.setModuleRec m r).slc = { s.slc with modules := s.slc.modules.set .init m r } := rfl
@[simp] theorem State.setModuleRec_pe (m : ModuleNo) (r : ModuleRec) :
    (s.setModuleRec m r).pe = s.pe := rfl
@[simp] theorem State.setModuleRec_groups (m : ModuleNo) (r : ModuleRec) :
    (s.setModuleRec m r).groups = s.groups := rfl
@[simp] theorem State.setModuleRec_age (m : ModuleNo) (r : ModuleRec) :
    (s.setModuleRec m r).age = s.age := rfl
@[simp] theorem State.setModuleRec_channels (m : ModuleNo) (r : ModuleRec) :
    (s.setModuleRec m r).channels = s.channels := rfl
@[simp] theorem State.setModuleRec_slots (m : ModuleNo) (r : ModuleRec) :
    (s.setModuleRec m r).slots = s.slots := rfl
@[simp] theorem State.setModuleRec_cq (m : ModuleNo) (r : ModuleRec) :
    (s.setModuleRec m r).cq = s.cq := rfl
@[simp] theorem State.setModuleRec_dli (m : ModuleNo) (r : ModuleRec) :
    (s.setModuleRec m r).dli = s.dli := rfl
@[simp] theorem State.setModuleRec_resetHeld (m : ModuleNo) (r : ModuleRec) :
    (s.setModuleRec m r).resetHeld = s.resetHeld := rfl
@[simp] theorem State.setModuleRec_pending (m : ModuleNo) (r : ModuleRec) :
    (s.setModuleRec m r).pending = s.pending := rfl

@[simp] theorem State.setPointRec_tb (p : PointNo) (r : PointRecord) :
    (s.setPointRec p r).tb = s.tb := rfl
@[simp] theorem State.setPointRec_ts (p : PointNo) (r : PointRecord) :
    (s.setPointRec p r).ts = s.ts := rfl
@[simp] theorem State.setPointRec_slc (p : PointNo) (r : PointRecord) :
    (s.setPointRec p r).slc = s.slc := rfl
@[simp] theorem State.setPointRec_pe (p : PointNo) (r : PointRecord) :
    (s.setPointRec p r).pe = { s.pe with points := s.pe.points.set .init p r } := rfl
@[simp] theorem State.setPointRec_groups (p : PointNo) (r : PointRecord) :
    (s.setPointRec p r).groups = s.groups := rfl
@[simp] theorem State.setPointRec_age (p : PointNo) (r : PointRecord) :
    (s.setPointRec p r).age = s.age := rfl
@[simp] theorem State.setPointRec_channels (p : PointNo) (r : PointRecord) :
    (s.setPointRec p r).channels = s.channels := rfl
@[simp] theorem State.setPointRec_slots (p : PointNo) (r : PointRecord) :
    (s.setPointRec p r).slots = s.slots := rfl
@[simp] theorem State.setPointRec_cq (p : PointNo) (r : PointRecord) :
    (s.setPointRec p r).cq = s.cq := rfl
@[simp] theorem State.setPointRec_dli (p : PointNo) (r : PointRecord) :
    (s.setPointRec p r).dli = s.dli := rfl
@[simp] theorem State.setPointRec_resetHeld (p : PointNo) (r : PointRecord) :
    (s.setPointRec p r).resetHeld = s.resetHeld := rfl
@[simp] theorem State.setPointRec_pending (p : PointNo) (r : PointRecord) :
    (s.setPointRec p r).pending = s.pending := rfl

@[simp] theorem State.setGroupRec_tb (g : GroupNo) (r : GroupRecord) :
    (s.setGroupRec g r).tb = s.tb := rfl
@[simp] theorem State.setGroupRec_ts (g : GroupNo) (r : GroupRecord) :
    (s.setGroupRec g r).ts = s.ts := rfl
@[simp] theorem State.setGroupRec_slc (g : GroupNo) (r : GroupRecord) :
    (s.setGroupRec g r).slc = s.slc := rfl
@[simp] theorem State.setGroupRec_pe (g : GroupNo) (r : GroupRecord) :
    (s.setGroupRec g r).pe = s.pe := rfl
@[simp] theorem State.setGroupRec_groups (g : GroupNo) (r : GroupRecord) :
    (s.setGroupRec g r).groups = s.groups.set .init g r := rfl
@[simp] theorem State.setGroupRec_age (g : GroupNo) (r : GroupRecord) :
    (s.setGroupRec g r).age = s.age := rfl
@[simp] theorem State.setGroupRec_channels (g : GroupNo) (r : GroupRecord) :
    (s.setGroupRec g r).channels = s.channels := rfl
@[simp] theorem State.setGroupRec_slots (g : GroupNo) (r : GroupRecord) :
    (s.setGroupRec g r).slots = s.slots := rfl
@[simp] theorem State.setGroupRec_cq (g : GroupNo) (r : GroupRecord) :
    (s.setGroupRec g r).cq = s.cq := rfl
@[simp] theorem State.setGroupRec_dli (g : GroupNo) (r : GroupRecord) :
    (s.setGroupRec g r).dli = s.dli := rfl
@[simp] theorem State.setGroupRec_resetHeld (g : GroupNo) (r : GroupRecord) :
    (s.setGroupRec g r).resetHeld = s.resetHeld := rfl
@[simp] theorem State.setGroupRec_pending (g : GroupNo) (r : GroupRecord) :
    (s.setGroupRec g r).pending = s.pending := rfl

@[simp] theorem State.setSlot_tb (k : SlotNo) (o : Option Slot) : (s.setSlot k o).tb = s.tb := rfl
@[simp] theorem State.setSlot_ts (k : SlotNo) (o : Option Slot) : (s.setSlot k o).ts = s.ts := rfl
@[simp] theorem State.setSlot_slc (k : SlotNo) (o : Option Slot) :
    (s.setSlot k o).slc = s.slc := rfl
@[simp] theorem State.setSlot_pe (k : SlotNo) (o : Option Slot) : (s.setSlot k o).pe = s.pe := rfl
@[simp] theorem State.setSlot_groups (k : SlotNo) (o : Option Slot) :
    (s.setSlot k o).groups = s.groups := rfl
@[simp] theorem State.setSlot_age (k : SlotNo) (o : Option Slot) :
    (s.setSlot k o).age = s.age := rfl
@[simp] theorem State.setSlot_channels (k : SlotNo) (o : Option Slot) :
    (s.setSlot k o).channels = s.channels := rfl
@[simp] theorem State.setSlot_slots (k : SlotNo) (o : Option Slot) :
    (s.setSlot k o).slots = s.slots.set none k o := rfl
@[simp] theorem State.setSlot_cq (k : SlotNo) (o : Option Slot) : (s.setSlot k o).cq = s.cq := rfl
@[simp] theorem State.setSlot_dli (k : SlotNo) (o : Option Slot) :
    (s.setSlot k o).dli = s.dli := rfl
@[simp] theorem State.setSlot_resetHeld (k : SlotNo) (o : Option Slot) :
    (s.setSlot k o).resetHeld = s.resetHeld := rfl
@[simp] theorem State.setSlot_pending (k : SlotNo) (o : Option Slot) :
    (s.setSlot k o).pending = s.pending := rfl

@[simp] theorem State.startRefresh_tb : (s.startRefresh).tb = s.tb := rfl
@[simp] theorem State.startRefresh_ts : (s.startRefresh).ts = s.ts := rfl
@[simp] theorem State.startRefresh_slc : (s.startRefresh).slc = s.slc := rfl
@[simp] theorem State.startRefresh_pe : (s.startRefresh).pe = s.pe := rfl
@[simp] theorem State.startRefresh_groups : (s.startRefresh).groups = s.groups := rfl
@[simp] theorem State.startRefresh_age : (s.startRefresh).age = s.age := rfl
@[simp] theorem State.startRefresh_channels : (s.startRefresh).channels = s.channels := rfl
@[simp] theorem State.startRefresh_slots : (s.startRefresh).slots = s.slots := rfl
@[simp] theorem State.startRefresh_cq :
    (s.startRefresh).cq = { s.cq with cursor := some (.points 0) } := rfl
@[simp] theorem State.startRefresh_dli : (s.startRefresh).dli = s.dli := rfl
@[simp] theorem State.startRefresh_resetHeld : (s.startRefresh).resetHeld = s.resetHeld := rfl
@[simp] theorem State.startRefresh_pending : (s.startRefresh).pending = s.pending := rfl

@[simp] theorem State.overflowQueue_tb : (s.overflowQueue).tb = s.tb := rfl
@[simp] theorem State.overflowQueue_ts : (s.overflowQueue).ts = s.ts := rfl
@[simp] theorem State.overflowQueue_slc : (s.overflowQueue).slc = s.slc := rfl
@[simp] theorem State.overflowQueue_pe : (s.overflowQueue).pe = s.pe := rfl
@[simp] theorem State.overflowQueue_groups : (s.overflowQueue).groups = s.groups := rfl
@[simp] theorem State.overflowQueue_age : (s.overflowQueue).age = s.age := rfl
@[simp] theorem State.overflowQueue_channels : (s.overflowQueue).channels = s.channels := rfl
@[simp] theorem State.overflowQueue_slots : (s.overflowQueue).slots = s.slots := rfl
@[simp] theorem State.overflowQueue_cq :
    (s.overflowQueue).cq = { s.cq with
      queue := [s.record s.now .overflow]
      queueOverflows := bump s.cq.queueOverflows
      cursor := some (.points 0) } := rfl
@[simp] theorem State.overflowQueue_dli : (s.overflowQueue).dli = s.dli := rfl
@[simp] theorem State.overflowQueue_resetHeld : (s.overflowQueue).resetHeld = s.resetHeld := rfl
@[simp] theorem State.overflowQueue_pending : (s.overflowQueue).pending = s.pending := rfl

@[simp] theorem State.answer_tb (k : Byte) (st : AnswerStatus) (pl : List Byte) :
    (s.answer k st pl).tb = s.tb := rfl
@[simp] theorem State.answer_ts (k : Byte) (st : AnswerStatus) (pl : List Byte) :
    (s.answer k st pl).ts = s.ts := rfl
@[simp] theorem State.answer_slc (k : Byte) (st : AnswerStatus) (pl : List Byte) :
    (s.answer k st pl).slc = s.slc := rfl
@[simp] theorem State.answer_pe (k : Byte) (st : AnswerStatus) (pl : List Byte) :
    (s.answer k st pl).pe = s.pe := rfl
@[simp] theorem State.answer_groups (k : Byte) (st : AnswerStatus) (pl : List Byte) :
    (s.answer k st pl).groups = s.groups := rfl
@[simp] theorem State.answer_age (k : Byte) (st : AnswerStatus) (pl : List Byte) :
    (s.answer k st pl).age = s.age := rfl
@[simp] theorem State.answer_channels (k : Byte) (st : AnswerStatus) (pl : List Byte) :
    (s.answer k st pl).channels = s.channels := rfl
@[simp] theorem State.answer_slots (k : Byte) (st : AnswerStatus) (pl : List Byte) :
    (s.answer k st pl).slots = s.slots := rfl
@[simp] theorem State.answer_cq (k : Byte) (st : AnswerStatus) (pl : List Byte) :
    (s.answer k st pl).cq = s.cq := rfl
@[simp] theorem State.answer_dli (k : Byte) (st : AnswerStatus) (pl : List Byte) :
    (s.answer k st pl).dli = { s.dli with answers := s.dli.answers ++ [⟨k, st, pl⟩] } := rfl
@[simp] theorem State.answer_resetHeld (k : Byte) (st : AnswerStatus) (pl : List Byte) :
    (s.answer k st pl).resetHeld = s.resetHeld := rfl
@[simp] theorem State.answer_pending (k : Byte) (st : AnswerStatus) (pl : List Byte) :
    (s.answer k st pl).pending = s.pending := rfl

@[simp] theorem State.setCycle_tb (c : Option Cycle) : (s.setCycle c).tb = s.tb := rfl
@[simp] theorem State.setCycle_ts (c : Option Cycle) : (s.setCycle c).ts = s.ts := rfl
@[simp] theorem State.setCycle_slc (c : Option Cycle) :
    (s.setCycle c).slc = { s.slc with cycle := c } := rfl
@[simp] theorem State.setCycle_pe (c : Option Cycle) : (s.setCycle c).pe = s.pe := rfl
@[simp] theorem State.setCycle_groups (c : Option Cycle) : (s.setCycle c).groups = s.groups := rfl
@[simp] theorem State.setCycle_age (c : Option Cycle) : (s.setCycle c).age = s.age := rfl
@[simp] theorem State.setCycle_channels (c : Option Cycle) :
    (s.setCycle c).channels = s.channels := rfl
@[simp] theorem State.setCycle_slots (c : Option Cycle) : (s.setCycle c).slots = s.slots := rfl
@[simp] theorem State.setCycle_cq (c : Option Cycle) : (s.setCycle c).cq = s.cq := rfl
@[simp] theorem State.setCycle_dli (c : Option Cycle) : (s.setCycle c).dli = s.dli := rfl
@[simp] theorem State.setCycle_resetHeld (c : Option Cycle) :
    (s.setCycle c).resetHeld = s.resetHeld := rfl
@[simp] theorem State.setCycle_pending (c : Option Cycle) :
    (s.setCycle c).pending = s.pending := rfl

@[simp] theorem State.setHandOvers_tb (hs : List HandOver) :
    (s.setHandOvers hs).tb = s.tb := rfl
@[simp] theorem State.setHandOvers_ts (hs : List HandOver) :
    (s.setHandOvers hs).ts = s.ts := rfl
@[simp] theorem State.setHandOvers_slc (hs : List HandOver) :
    (s.setHandOvers hs).slc = s.slc := rfl
@[simp] theorem State.setHandOvers_pe (hs : List HandOver) :
    (s.setHandOvers hs).pe = s.pe := rfl
@[simp] theorem State.setHandOvers_groups (hs : List HandOver) :
    (s.setHandOvers hs).groups = s.groups := rfl
@[simp] theorem State.setHandOvers_age (hs : List HandOver) :
    (s.setHandOvers hs).age = { s.age with handOvers := hs } := rfl
@[simp] theorem State.setHandOvers_channels (hs : List HandOver) :
    (s.setHandOvers hs).channels = s.channels := rfl
@[simp] theorem State.setHandOvers_slots (hs : List HandOver) :
    (s.setHandOvers hs).slots = s.slots := rfl
@[simp] theorem State.setHandOvers_cq (hs : List HandOver) :
    (s.setHandOvers hs).cq = s.cq := rfl
@[simp] theorem State.setHandOvers_dli (hs : List HandOver) :
    (s.setHandOvers hs).dli = s.dli := rfl
@[simp] theorem State.setHandOvers_resetHeld (hs : List HandOver) :
    (s.setHandOvers hs).resetHeld = s.resetHeld := rfl
@[simp] theorem State.setHandOvers_pending (hs : List HandOver) :
    (s.setHandOvers hs).pending = s.pending := rfl

@[simp] theorem State.setLineClock_tb (clock : Micros) :
    (s.setLineClock clock).tb = s.tb := rfl
@[simp] theorem State.setLineClock_ts (clock : Micros) :
    (s.setLineClock clock).ts = s.ts := rfl
@[simp] theorem State.setLineClock_slc (clock : Micros) :
    (s.setLineClock clock).slc = { s.slc with lineClock := clock } := rfl
@[simp] theorem State.setLineClock_pe (clock : Micros) :
    (s.setLineClock clock).pe = s.pe := rfl
@[simp] theorem State.setLineClock_groups (clock : Micros) :
    (s.setLineClock clock).groups = s.groups := rfl
@[simp] theorem State.setLineClock_age (clock : Micros) :
    (s.setLineClock clock).age = s.age := rfl
@[simp] theorem State.setLineClock_channels (clock : Micros) :
    (s.setLineClock clock).channels = s.channels := rfl
@[simp] theorem State.setLineClock_slots (clock : Micros) :
    (s.setLineClock clock).slots = s.slots := rfl
@[simp] theorem State.setLineClock_cq (clock : Micros) :
    (s.setLineClock clock).cq = s.cq := rfl
@[simp] theorem State.setLineClock_dli (clock : Micros) :
    (s.setLineClock clock).dli = s.dli := rfl
@[simp] theorem State.setLineClock_resetHeld (clock : Micros) :
    (s.setLineClock clock).resetHeld = s.resetHeld := rfl
@[simp] theorem State.setLineClock_pending (clock : Micros) :
    (s.setLineClock clock).pending = s.pending := rfl

@[simp] theorem State.sending_tb (t : OutTelegram) : (s.sending t).tb = s.tb := rfl
@[simp] theorem State.sending_ts (t : OutTelegram) : (s.sending t).ts = s.ts := rfl
@[simp] theorem State.sending_slc (t : OutTelegram) : (s.sending t).slc = s.slc := rfl
@[simp] theorem State.sending_pe (t : OutTelegram) : (s.sending t).pe = s.pe := rfl
@[simp] theorem State.sending_groups (t : OutTelegram) : (s.sending t).groups = s.groups := rfl
@[simp] theorem State.sending_age (t : OutTelegram) : (s.sending t).age = s.age := rfl
@[simp] theorem State.sending_channels (t : OutTelegram) :
    (s.sending t).channels = s.channels := rfl
@[simp] theorem State.sending_slots (t : OutTelegram) : (s.sending t).slots = s.slots := rfl
@[simp] theorem State.sending_cq (t : OutTelegram) : (s.sending t).cq = s.cq := rfl
@[simp] theorem State.sending_dli (t : OutTelegram) :
    (s.sending t).dli = { s.dli with transmitter := some t } := rfl
@[simp] theorem State.sending_resetHeld (t : OutTelegram) :
    (s.sending t).resetHeld = s.resetHeld := rfl
@[simp] theorem State.sending_pending (t : OutTelegram) : (s.sending t).pending = s.pending := rfl

@[simp] theorem State.freeBuffer_tb : (s.freeBuffer).tb = s.tb := rfl
@[simp] theorem State.freeBuffer_ts : (s.freeBuffer).ts = s.ts := rfl
@[simp] theorem State.freeBuffer_slc : (s.freeBuffer).slc = s.slc := rfl
@[simp] theorem State.freeBuffer_pe : (s.freeBuffer).pe = s.pe := rfl
@[simp] theorem State.freeBuffer_groups : (s.freeBuffer).groups = s.groups := rfl
@[simp] theorem State.freeBuffer_age : (s.freeBuffer).age = s.age := rfl
@[simp] theorem State.freeBuffer_channels : (s.freeBuffer).channels = s.channels := rfl
@[simp] theorem State.freeBuffer_slots : (s.freeBuffer).slots = s.slots := rfl
@[simp] theorem State.freeBuffer_cq : (s.freeBuffer).cq = s.cq := rfl
@[simp] theorem State.freeBuffer_dli :
    (s.freeBuffer).dli = { s.dli with buffers := s.dli.buffers.tail } := rfl
@[simp] theorem State.freeBuffer_resetHeld : (s.freeBuffer).resetHeld = s.resetHeld := rfl
@[simp] theorem State.freeBuffer_pending : (s.freeBuffer).pending = s.pending := rfl

@[simp] theorem State.setReceiver_tb (r : Receiver) : (s.setReceiver r).tb = s.tb := rfl
@[simp] theorem State.setReceiver_ts (r : Receiver) : (s.setReceiver r).ts = s.ts := rfl
@[simp] theorem State.setReceiver_slc (r : Receiver) : (s.setReceiver r).slc = s.slc := rfl
@[simp] theorem State.setReceiver_pe (r : Receiver) : (s.setReceiver r).pe = s.pe := rfl
@[simp] theorem State.setReceiver_groups (r : Receiver) : (s.setReceiver r).groups = s.groups := rfl
@[simp] theorem State.setReceiver_age (r : Receiver) : (s.setReceiver r).age = s.age := rfl
@[simp] theorem State.setReceiver_channels (r : Receiver) :
    (s.setReceiver r).channels = s.channels := rfl
@[simp] theorem State.setReceiver_slots (r : Receiver) : (s.setReceiver r).slots = s.slots := rfl
@[simp] theorem State.setReceiver_cq (r : Receiver) : (s.setReceiver r).cq = s.cq := rfl
@[simp] theorem State.setReceiver_dli (r : Receiver) :
    (s.setReceiver r).dli = { s.dli with receiver := r } := rfl
@[simp] theorem State.setReceiver_resetHeld (r : Receiver) :
    (s.setReceiver r).resetHeld = s.resetHeld := rfl
@[simp] theorem State.setReceiver_pending (r : Receiver) :
    (s.setReceiver r).pending = s.pending := rfl

@[simp] theorem State.countDeskCrc_tb : (s.countDeskCrc).tb = s.tb := rfl
@[simp] theorem State.countDeskCrc_ts : (s.countDeskCrc).ts = s.ts := rfl
@[simp] theorem State.countDeskCrc_slc : (s.countDeskCrc).slc = s.slc := rfl
@[simp] theorem State.countDeskCrc_pe : (s.countDeskCrc).pe = s.pe := rfl
@[simp] theorem State.countDeskCrc_groups : (s.countDeskCrc).groups = s.groups := rfl
@[simp] theorem State.countDeskCrc_age : (s.countDeskCrc).age = s.age := rfl
@[simp] theorem State.countDeskCrc_channels : (s.countDeskCrc).channels = s.channels := rfl
@[simp] theorem State.countDeskCrc_slots : (s.countDeskCrc).slots = s.slots := rfl
@[simp] theorem State.countDeskCrc_cq : (s.countDeskCrc).cq = s.cq := rfl
@[simp] theorem State.countDeskCrc_dli :
    (s.countDeskCrc).dli = { s.dli with crcErrors := bump s.dli.crcErrors } := rfl
@[simp] theorem State.countDeskCrc_resetHeld : (s.countDeskCrc).resetHeld = s.resetHeld := rfl
@[simp] theorem State.countDeskCrc_pending : (s.countDeskCrc).pending = s.pending := rfl

@[simp] theorem State.setDeskTime_tb (desk received : Time) :
    (s.setDeskTime desk received).tb = { s.tb with offset := desk - received } := rfl
@[simp] theorem State.setDeskTime_ts (desk received : Time) :
    (s.setDeskTime desk received).ts = s.ts := rfl
@[simp] theorem State.setDeskTime_slc (desk received : Time) :
    (s.setDeskTime desk received).slc = s.slc := rfl
@[simp] theorem State.setDeskTime_pe (desk received : Time) :
    (s.setDeskTime desk received).pe = s.pe := rfl
@[simp] theorem State.setDeskTime_groups (desk received : Time) :
    (s.setDeskTime desk received).groups = s.groups := rfl
@[simp] theorem State.setDeskTime_age (desk received : Time) :
    (s.setDeskTime desk received).age = s.age := rfl
@[simp] theorem State.setDeskTime_channels (desk received : Time) :
    (s.setDeskTime desk received).channels = s.channels := rfl
@[simp] theorem State.setDeskTime_slots (desk received : Time) :
    (s.setDeskTime desk received).slots = s.slots := rfl
@[simp] theorem State.setDeskTime_cq (desk received : Time) :
    (s.setDeskTime desk received).cq = s.cq := rfl
@[simp] theorem State.setDeskTime_dli (desk received : Time) :
    (s.setDeskTime desk received).dli = s.dli := rfl
@[simp] theorem State.setDeskTime_resetHeld (desk received : Time) :
    (s.setDeskTime desk received).resetHeld = s.resetHeld := rfl
@[simp] theorem State.setDeskTime_pending (desk received : Time) :
    (s.setDeskTime desk received).pending = s.pending := rfl

@[simp] theorem State.setKey_tb (k : KeyLevel) : (s.setKey k).tb = s.tb := rfl
@[simp] theorem State.setKey_ts (k : KeyLevel) : (s.setKey k).ts = { s.ts with key := k } := rfl
@[simp] theorem State.setKey_slc (k : KeyLevel) : (s.setKey k).slc = s.slc := rfl
@[simp] theorem State.setKey_pe (k : KeyLevel) : (s.setKey k).pe = s.pe := rfl
@[simp] theorem State.setKey_groups (k : KeyLevel) : (s.setKey k).groups = s.groups := rfl
@[simp] theorem State.setKey_age (k : KeyLevel) : (s.setKey k).age = s.age := rfl
@[simp] theorem State.setKey_channels (k : KeyLevel) : (s.setKey k).channels = s.channels := rfl
@[simp] theorem State.setKey_slots (k : KeyLevel) : (s.setKey k).slots = s.slots := rfl
@[simp] theorem State.setKey_cq (k : KeyLevel) : (s.setKey k).cq = s.cq := rfl
@[simp] theorem State.setKey_dli (k : KeyLevel) : (s.setKey k).dli = s.dli := rfl
@[simp] theorem State.setKey_resetHeld (k : KeyLevel) : (s.setKey k).resetHeld = s.resetHeld := rfl
@[simp] theorem State.setKey_pending (k : KeyLevel) : (s.setKey k).pending = s.pending := rfl

@[simp] theorem State.beginRestart_tb : (s.beginRestart).tb = s.tb := rfl
@[simp] theorem State.beginRestart_ts : (s.beginRestart).ts = s.ts := rfl
@[simp] theorem State.beginRestart_slc : (s.beginRestart).slc = s.slc := rfl
@[simp] theorem State.beginRestart_pe : (s.beginRestart).pe = s.pe := rfl
@[simp] theorem State.beginRestart_groups : (s.beginRestart).groups = s.groups := rfl
@[simp] theorem State.beginRestart_age : (s.beginRestart).age = s.age := rfl
@[simp] theorem State.beginRestart_channels : (s.beginRestart).channels = s.channels := rfl
@[simp] theorem State.beginRestart_slots : (s.beginRestart).slots = s.slots := rfl
@[simp] theorem State.beginRestart_cq : (s.beginRestart).cq = s.cq := rfl
@[simp] theorem State.beginRestart_dli :
    (s.beginRestart).dli = { s.dli with restarting := true } := rfl
@[simp] theorem State.beginRestart_resetHeld : (s.beginRestart).resetHeld = s.resetHeld := rfl
@[simp] theorem State.beginRestart_pending : (s.beginRestart).pending = s.pending := rfl

@[simp] theorem State.freeTransmitter_tb : (s.freeTransmitter).tb = s.tb := rfl
@[simp] theorem State.freeTransmitter_ts : (s.freeTransmitter).ts = s.ts := rfl
@[simp] theorem State.freeTransmitter_slc : (s.freeTransmitter).slc = s.slc := rfl
@[simp] theorem State.freeTransmitter_pe : (s.freeTransmitter).pe = s.pe := rfl
@[simp] theorem State.freeTransmitter_groups : (s.freeTransmitter).groups = s.groups := rfl
@[simp] theorem State.freeTransmitter_age : (s.freeTransmitter).age = s.age := rfl
@[simp] theorem State.freeTransmitter_channels : (s.freeTransmitter).channels = s.channels := rfl
@[simp] theorem State.freeTransmitter_slots : (s.freeTransmitter).slots = s.slots := rfl
@[simp] theorem State.freeTransmitter_cq : (s.freeTransmitter).cq = s.cq := rfl
@[simp] theorem State.freeTransmitter_dli :
    (s.freeTransmitter).dli = { s.dli with transmitter := none, lastSendEnd := s.now } := rfl
@[simp] theorem State.freeTransmitter_resetHeld : (s.freeTransmitter).resetHeld = s.resetHeld := rfl
@[simp] theorem State.freeTransmitter_pending : (s.freeTransmitter).pending = s.pending := rfl

@[simp] theorem State.selectTrace_tb (p : Option PointNo) : (s.selectTrace p).tb = s.tb := rfl
@[simp] theorem State.selectTrace_ts (p : Option PointNo) : (s.selectTrace p).ts = s.ts := rfl
@[simp] theorem State.selectTrace_slc (p : Option PointNo) : (s.selectTrace p).slc = s.slc := rfl
@[simp] theorem State.selectTrace_pe (p : Option PointNo) :
    (s.selectTrace p).pe = { s.pe with tracedPoint := p, lastOffered := none } := rfl
@[simp] theorem State.selectTrace_groups (p : Option PointNo) :
    (s.selectTrace p).groups = s.groups := rfl
@[simp] theorem State.selectTrace_age (p : Option PointNo) :
    (s.selectTrace p).age = s.age := rfl
@[simp] theorem State.selectTrace_channels (p : Option PointNo) :
    (s.selectTrace p).channels = s.channels := rfl
@[simp] theorem State.selectTrace_slots (p : Option PointNo) :
    (s.selectTrace p).slots = s.slots := rfl
@[simp] theorem State.selectTrace_cq (p : Option PointNo) :
    (s.selectTrace p).cq = { s.cq with traceGap := false } := rfl
@[simp] theorem State.selectTrace_dli (p : Option PointNo) : (s.selectTrace p).dli = s.dli := rfl
@[simp] theorem State.selectTrace_resetHeld (p : Option PointNo) :
    (s.selectTrace p).resetHeld = s.resetHeld := rfl
@[simp] theorem State.selectTrace_pending (p : Option PointNo) :
    (s.selectTrace p).pending = s.pending := rfl

/-! ### Reading a numbered record after a write -/

theorem State.moduleRec_setModuleRec (m k : ModuleNo) (r : ModuleRec) :
    (s.setModuleRec m r).moduleRec k = if k = m then r else s.moduleRec k :=
  Table.get_set ModuleRec.init s.slc.modules m k r

theorem State.pointRec_setPointRec (p q : PointNo) (r : PointRecord) :
    (s.setPointRec p r).pointRec q = if q = p then r else s.pointRec q :=
  Table.get_set PointRecord.init s.pe.points p q r

theorem State.groupRec_setGroupRec (g k : GroupNo) (r : GroupRecord) :
    (s.setGroupRec g r).groupRec k = if k = g then r else s.groupRec k :=
  Table.get_set GroupRecord.init s.groups g k r

theorem State.slot_setSlot (j k : SlotNo) (o : Option Slot) :
    (s.setSlot j o).slot k = if k = j then o else s.slot k :=
  Table.get_set none s.slots j k o

theorem State.channelBank_setChannel (m k : ModuleNo) (ch : ChannelNo) (c : Channel) :
    (s.setChannel m ch c).channelBank k =
      if k = m then (s.channelBank m).map fun bank => bank.set .init ch c else s.channelBank k := by
  unfold State.setChannel
  cases hb : s.channelBank m with
  | none => split <;> simp_all
  | some bank =>
    simp only [State.channelBank, Table.get_set]
    split <;> simp_all

/-- A channel record after a write: the one written, where the ODU holds records for its module. -/
theorem State.channel_setChannel (m k : ModuleNo) (ch j : ChannelNo) (c : Channel) :
    (s.setChannel m ch c).channel k j =
      if k = m ∧ j = ch then (s.channel m ch).map fun _ => c else s.channel k j := by
  simp only [State.channel, State.channelBank_setChannel]
  by_cases hk : k = m
  · subst hk
    cases s.channelBank k with
    | none => simp
    | some bank =>
      simp only [if_true, Option.map_some, Table.get_set, true_and]
      split <;> rfl
  · simp [hk]

end Sys2Proof.Machine
end

