-- ==== Sys2Proof/Laws/Frame.lean ====
section
/-! SUPPORT. What each shared operation leaves alone: one frame for each, composed from the frames of
the operations it is made of. -/

namespace Sys2Proof.Machine

/-! ### Frames compose -/

theorem Frame.refl (l : List Block) (s : State) : Frame l s s :=
  ⟨fun b _ => by cases b <;> rfl, rfl⟩

theorem Frame.trans {l : List Block} {s t u : State} (h : Frame l s t) (h' : Frame l t u) :
    Frame l s u := by
  refine ⟨fun b hb => ?_, h'.pending.trans h.pending⟩
  have a := h.blocks b hb
  have c := h'.blocks b hb
  cases b <;> exact Eq.trans c a

theorem Frame.mono {l l' : List Block} {s t : State} (h : Frame l s t) (hl : l ⊆ l') :
    Frame l' s t :=
  ⟨fun b hb => h.blocks b fun hb' => hb (hl hb'), h.pending⟩

theorem Frame.foldl {α : Type} {l : List Block} (f : State → α → State)
    (h : ∀ s a, Frame l s (f s a)) (xs : List α) (s : State) : Frame l s (xs.foldl f s) := by
  induction xs generalizing s with
  | nil => exact Frame.refl l s
  | cons x xs ih => exact (h s x).trans (ih _)

variable (s : State)

theorem State.setModuleRec_frame (m : ModuleNo) (r : ModuleRec) :
    Frame [.slc] s (s.setModuleRec m r) :=
  ⟨fun b hb => by cases b <;> first | rfl | exact absurd (by decide) hb, rfl⟩

theorem State.setPointRec_frame (p : PointNo) (r : PointRecord) :
    Frame [.pe] s (s.setPointRec p r) :=
  ⟨fun b hb => by cases b <;> first | rfl | exact absurd (by decide) hb, rfl⟩

theorem State.setGroupRec_frame (g : GroupNo) (r : GroupRecord) :
    Frame [.groups] s (s.setGroupRec g r) :=
  ⟨fun b hb => by cases b <;> first | rfl | exact absurd (by decide) hb, rfl⟩

theorem State.setSlot_frame (k : SlotNo) (o : Option Slot) :
    Frame [.slots] s (s.setSlot k o) :=
  ⟨fun b hb => by cases b <;> first | rfl | exact absurd (by decide) hb, rfl⟩

theorem State.freeSlot_frame (k : SlotNo) :
    Frame [.slots] s (s.freeSlot k) :=
  ⟨fun b hb => by cases b <;> first | rfl | exact absurd (by decide) hb, rfl⟩

theorem State.startRefresh_frame :
    Frame [.cq] s (s.startRefresh) :=
  ⟨fun b hb => by cases b <;> first | rfl | exact absurd (by decide) hb, rfl⟩

theorem State.overflowQueue_frame :
    Frame [.cq] s (s.overflowQueue) :=
  ⟨fun b hb => by cases b <;> first | rfl | exact absurd (by decide) hb, rfl⟩

theorem State.answer_frame (k : Byte) (st : AnswerStatus) (pl : List Byte) :
    Frame [.dli] s (s.answer k st pl) :=
  ⟨fun b hb => by cases b <;> first | rfl | exact absurd (by decide) hb, rfl⟩

theorem State.setCycle_frame (c : Option Cycle) :
    Frame [.slc] s (s.setCycle c) :=
  ⟨fun b hb => by cases b <;> first | rfl | exact absurd (by decide) hb, rfl⟩

theorem State.sending_frame (t : OutTelegram) :
    Frame [.dli] s (s.sending t) :=
  ⟨fun b hb => by cases b <;> first | rfl | exact absurd (by decide) hb, rfl⟩

theorem State.freeBuffer_frame :
    Frame [.dli] s (s.freeBuffer) :=
  ⟨fun b hb => by cases b <;> first | rfl | exact absurd (by decide) hb, rfl⟩

theorem State.dropFlashing_frame :
    Frame [.channels] s (s.dropFlashing) :=
  ⟨fun b hb => by cases b <;> first | rfl | exact absurd (by decide) hb, rfl⟩

theorem State.swapBanks_frame :
    Frame [.ts, .dli] s (s.swapBanks) :=
  ⟨fun b hb => by cases b <;> first | rfl | exact absurd (by decide) hb, rfl⟩

theorem State.swapRecords_frame (old new : Tables) :
    Frame [.slc, .pe, .groups, .channels] s (s.swapRecords old new) :=
  ⟨fun b hb => by cases b <;> first | rfl | exact absurd (by decide) hb, rfl⟩

theorem State.setChannel_frame (m : ModuleNo) (ch : ChannelNo) (c : Channel) :
    Frame [.channels] s (s.setChannel m ch c) := by
  unfold State.setChannel
  split
  · exact Frame.refl _ s
  · exact ⟨fun b hb => by cases b <;> first | rfl | exact absurd (by decide) hb, rfl⟩

theorem State.hand_frame (t : Time) (c : RecordContent) : Frame [.cq] s (s.hand t c) := by
  unfold State.hand
  split
  · exact ⟨fun b hb => by cases b <;> first | rfl | exact absurd (by decide) hb, rfl⟩
  · exact s.overflowQueue_frame

theorem State.handTrace_frame (t : Time) (p : PointNo) (l : TraceLevels) :
    Frame [.cq] s (s.handTrace t p l) := by
  unfold State.handTrace
  split <;> exact ⟨fun b hb => by cases b <;> first | rfl | exact absurd (by decide) hb, rfl⟩

/-! ### ODU and CSU -/

theorem State.setCode_frame (m : ModuleNo) (ch : ChannelNo) (code : DriveCode) :
    Frame [.channels] s (s.setCode m ch code) := by
  unfold State.setCode
  split
  · exact Frame.refl _ s
  · split
    · exact Frame.refl _ s
    · split
      · exact Frame.refl _ s
      · exact s.setChannel_frame _ _ _

theorem State.oduModuleLost_frame (m : ModuleNo) : Frame [.channels] s (s.oduModuleLost m) := by
  unfold State.oduModuleLost
  split
  · exact Frame.refl _ s
  · exact ⟨fun b hb => by cases b <;> first | rfl | exact absurd (by decide) hb, rfl⟩

theorem State.recordSentCodes_frame (m : ModuleNo) :
    Frame [.channels] s (s.recordSentCodes m) := by
  unfold State.recordSentCodes
  split
  · exact Frame.refl _ s
  · exact ⟨fun b hb => by cases b <;> first | rfl | exact absurd (by decide) hb, rfl⟩

theorem State.issue_frame (c : ControlNo) (r : CommandResult) (t : Time) :
    Frame [.cq] s (s.issue c r t) := s.hand_frame t _

theorem State.issueIfOpen_frame (sl : Slot) (r : CommandResult) (t : Time) :
    Frame [.cq] s (s.issueIfOpen sl r t) := by
  unfold State.issueIfOpen
  split
  · exact s.issue_frame _ _ _
  · exact Frame.refl _ s

/-- What the CSU and the ODU may touch. -/
abbrev commandBlocks : List Block := [.channels, .slots, .cq]

theorem Frame.ofChannels {s t : State} (h : Frame [.channels] s t) : Frame commandBlocks s t :=
  h.mono (by decide)

theorem Frame.ofSlots {s t : State} (h : Frame [.slots] s t) : Frame commandBlocks s t :=
  h.mono (by decide)

theorem Frame.ofQueue {s t : State} (h : Frame [.cq] s t) : Frame commandBlocks s t :=
  h.mono (by decide)

theorem State.takeControl_frame (c : ControlNo) : Frame commandBlocks s (s.takeControl c) := by
  unfold State.takeControl
  split
  · exact (s.issue_frame _ _ _).ofQueue
  · exact (s.setSlot_frame _ _).ofSlots.trans (State.setCode_frame _ _ _ _).ofChannels

theorem State.endPulse_frame (k : SlotNo) (sl : Slot) (due : Time) :
    Frame commandBlocks s (s.endPulse k sl due) := by
  refine (s.setCode_frame sl.mod sl.channel .off).ofChannels.trans ?_
  unfold State.endPulse
  split
  · exact (State.issue_frame _ _ _ _).ofQueue.trans (State.freeSlot_frame _ _).ofSlots
  · exact (State.freeSlot_frame _ _).ofSlots
  · exact (State.setSlot_frame _ _ _).ofSlots
  · exact (State.setSlot_frame _ _ _).ofSlots

theorem State.proveSlot_frame (k : SlotNo) (sl : Slot) (e : Time) :
    Frame commandBlocks s (s.proveSlot k sl e) := by
  refine (s.issue_frame sl.control .proved e).ofQueue.trans ?_
  unfold State.proveSlot
  split
  · exact (State.freeSlot_frame _ _).ofSlots
  · split
    · exact (State.setCode_frame _ _ _ _).ofChannels.trans (State.freeSlot_frame _ _).ofSlots
    · exact (State.setSlot_frame _ _ _).ofSlots

theorem State.noticeSlot_frame (p : PointNo) (new : PointState) (k : SlotNo) :
    Frame commandBlocks s (State.noticeSlot p new s k) := by
  unfold State.noticeSlot
  split
  · exact Frame.refl _ s
  · split
    · exact Frame.refl _ s
    · split
      · exact s.proveSlot_frame _ _ _
      · exact Frame.refl _ s

/-- A notice to the CSU touches slots, channels and the queue alone (R109). -/
theorem State.csuNotice_frame (p : PointNo) (new : PointState) :
    Frame commandBlocks s (s.csuNotice p new) :=
  Frame.foldl _ (fun s k => s.noticeSlot_frame p new k) _ s

theorem State.endProving_frame (k : SlotNo) (sl : Slot) (due : Time) :
    Frame commandBlocks s (s.endProving k sl due) := by
  unfold State.endProving
  dsimp only
  refine Frame.trans ?_ (State.freeSlot_frame _ _).ofSlots
  split
  · exact (s.issue_frame _ _ _).ofQueue.trans (State.setCode_frame _ _ _ _).ofChannels
  · exact (s.issue_frame _ _ _).ofQueue

theorem State.confirmSlot_frame (m : ModuleNo) (l : BitVec 32) (t : Time) (k : SlotNo) :
    Frame commandBlocks s (State.confirmSlot m l t s k) := by
  unfold State.confirmSlot
  split
  · exact Frame.refl _ s
  · split
    · split
      · exact Frame.refl _ s
      · split
        · exact (State.issue_frame _ _ _ _).ofQueue.trans (State.freeSlot_frame _ _).ofSlots
        · exact Frame.refl _ s
    · exact Frame.refl _ s

theorem State.csuReadback_frame (m : ModuleNo) (l : BitVec 32) (t : Time) :
    Frame commandBlocks s (s.csuReadback m l t) :=
  Frame.foldl _ (fun s k => s.confirmSlot_frame m l t k) _ s

theorem State.csuChannelFault_frame (m : ModuleNo) (ch : ChannelNo) (t : Time) :
    Frame commandBlocks s (s.csuChannelFault m ch t) := by
  unfold State.csuChannelFault
  split
  · exact Frame.refl _ s
  · split
    · exact Frame.refl _ s
    · exact (State.issueIfOpen_frame _ _ _ _).ofQueue.trans (State.freeSlot_frame _ _).ofSlots

theorem State.loseSlot_frame (m : ModuleNo) (t : Time) (k : SlotNo) :
    Frame commandBlocks s (State.loseSlot m t s k) := by
  unfold State.loseSlot
  split
  · exact Frame.refl _ s
  · split
    · exact (State.issueIfOpen_frame _ _ _ _).ofQueue.trans (State.freeSlot_frame _ _).ofSlots
    · exact Frame.refl _ s

theorem State.csuModuleLost_frame (m : ModuleNo) (t : Time) :
    Frame commandBlocks s (s.csuModuleLost m t) :=
  Frame.foldl _ (fun s k => s.loseSlot_frame m t k) _ s

theorem State.cancelSlot_frame (k : SlotNo) (sl : Slot) (e : Time) :
    Frame commandBlocks s (s.cancelSlot k sl e) := by
  unfold State.cancelSlot
  dsimp only
  refine Frame.trans ?_ (State.freeSlot_frame _ _).ofSlots
  split
  · exact (s.issueIfOpen_frame _ _ _).ofQueue.trans (State.setCode_frame _ _ _ _).ofChannels
  · exact (s.issueIfOpen_frame _ _ _).ofQueue.trans (State.setCode_frame _ _ _ _).ofChannels
  · exact (s.issueIfOpen_frame _ _ _).ofQueue
  · exact (s.issueIfOpen_frame _ _ _).ofQueue

theorem State.silenceSlot_frame (e : Time) (k : SlotNo) :
    Frame commandBlocks s (State.silenceSlot e s k) := by
  unfold State.silenceSlot
  split
  · exact Frame.refl _ s
  · dsimp only
    refine Frame.trans ?_ (State.freeSlot_frame _ _).ofSlots
    split
    · exact (s.issueIfOpen_frame _ _ _).ofQueue.trans (State.setCode_frame _ _ _ _).ofChannels
    · exact (s.issueIfOpen_frame _ _ _).ofQueue

theorem State.csuSilence_frame (e : Time) : Frame commandBlocks s (s.csuSilence e) :=
  (Frame.foldl _ (fun s k => s.silenceSlot_frame e k) _ s).trans
    (State.dropFlashing_frame _).ofChannels

theorem State.superviseChannel_frame (m : ModuleNo) (l : BitVec 32) (t : Time) (ch : ChannelNo) :
    Frame commandBlocks s (State.superviseChannel m l t s ch) := by
  unfold State.superviseChannel
  split
  · exact Frame.refl _ s
  · split
    · exact (State.setChannel_frame _ _ _ _).ofChannels
    · exact (State.setChannel_frame _ _ _ _).ofChannels.trans
        ((State.hand_frame _ _ _).ofQueue.trans (State.csuChannelFault_frame _ _ _ _))
    · exact (State.setChannel_frame _ _ _ _).ofChannels.trans (State.hand_frame _ _ _).ofQueue

/-- A readback handed to the ODU and the CSU touches channels, slots and the queue alone (R94). -/
theorem State.oduReadback_frame (m : ModuleNo) (l : BitVec 32) (t : Time) :
    Frame commandBlocks s (s.oduReadback m l t) := by
  unfold State.oduReadback
  refine Frame.trans ?_ (State.csuReadback_frame _ _ _ _)
  split
  · exact Frame.foldl _ (fun s ch => s.superviseChannel_frame m l t ch) _ s
  · exact Frame.refl _ s

/-! ### PE and AGE -/

theorem State.evaluateGroup_frame (arrival : Bool) (t : Time) (g : GroupNo) :
    Frame [.groups, .cq] s (State.evaluateGroup arrival t s g) := by
  unfold State.evaluateGroup
  dsimp only
  split
  · exact ((s.setGroupRec_frame _ _).mono (by decide)).trans
      ((State.hand_frame _ _ _).mono (by decide))
  · exact (s.setGroupRec_frame _ _).mono (by decide)

theorem State.clearNoMatch_frame (g : GroupNo) : Frame [.groups] s (s.clearNoMatch g) :=
  s.setGroupRec_frame _ _

theorem State.workHandOver_frame (h : HandOver) : Frame [.groups, .cq] s (s.workHandOver h) :=
  (Frame.foldl _ (fun s g => s.evaluateGroup_frame h.arrival h.time g) _ s).trans
    (Frame.foldl _ (fun s g => (s.clearNoMatch_frame g).mono (by decide)) _ _)

theorem State.setHandOvers_frame (hs : List HandOver) : Frame [.age] s (s.setHandOvers hs) :=
  ⟨fun b hb => by cases b <;> first | rfl | exact absurd (by decide) hb, rfl⟩

/-- What the AGE may touch (R57 to R63). -/
abbrev ageBlocks : List Block := [.groups, .age, .cq]

theorem State.ageFinish_frame : Frame ageBlocks s s.ageFinish :=
  ((Frame.foldl _ (fun s h => s.workHandOver_frame h) _ s).mono (by decide)).trans
    ((State.setHandOvers_frame _ _).mono (by decide))

theorem State.ageTurn_frame : Frame ageBlocks s s.ageTurn := by
  unfold State.ageTurn
  split
  · exact Frame.refl _ s
  · split
    · exact ((s.evaluateGroup_frame _ _ _).mono (by decide)).trans
        ((State.setHandOvers_frame _ _).mono (by decide))
    · exact ((Frame.foldl _ (fun s g => s.clearNoMatch_frame g) _ s).mono (by decide)).trans
        ((State.setHandOvers_frame _ _).mono (by decide))

theorem State.ageTurns_frame (n : Nat) : Frame ageBlocks s (s.ageTurns n) := by
  induction n generalizing s with
  | zero => exact Frame.refl _ s
  | succ n ih => exact s.ageTurn_frame.trans (ih _)

theorem State.handOver_frame (h : HandOver) : Frame ageBlocks s (s.handOver h) := by
  unfold State.handOver
  dsimp only
  split
  · exact ((s.setHandOvers_frame _).mono (by decide)).trans (State.ageFinish_frame _)
  · refine Frame.trans ?_ (State.ageTurns_frame _ _)
    exact ⟨fun b hb => by cases b <;> first | rfl | exact absurd (by decide) hb, rfl⟩

theorem State.ageArrival_frame (m : ModuleNo) (t : Time) : Frame ageBlocks s (s.ageArrival m t) :=
  s.handOver_frame _

theorem State.ageChange_frame (set : List PointNo) (t : Time) :
    Frame ageBlocks s (s.ageChange set t) :=
  s.handOver_frame _

theorem State.ageNotice_frame (set : List PointNo) (t : Time) :
    Frame ageBlocks s (s.ageNotice set t) :=
  s.handOver_frame _

theorem State.handPoint_frame (p : PointNo) (old new : PointRecord) (t : Time) (x : PointExtra) :
    Frame [.cq] s (s.handPoint p old new t x) := by
  unfold State.handPoint
  split
  · exact s.hand_frame _ _
  · exact Frame.refl _ s

/-- A point's new record and its POINT record (R10 step 1). -/
theorem State.storePoint_frame (p : PointNo) (old new : PointRecord) (t : Time) (x : PointExtra) :
    Frame [.pe, .cq] s ((s.setPointRec p new).handPoint p old new t x) :=
  ((s.setPointRec_frame _ _).mono (by decide)).trans
    ((State.handPoint_frame _ _ _ _ _ _).mono (by decide))

/-- What handing on a point's change may touch (R10). -/
abbrev pointBlocks : List Block := [.pe, .channels, .slots, .cq]

theorem State.handOn_frame (p : PointNo) (new : PointRecord) (t : Time) (x : PointExtra) :
    Frame pointBlocks s (s.handOn p new t x) := by
  unfold State.handOn
  dsimp only
  split
  · exact ((s.storePoint_frame _ _ _ _ _).mono (by decide)).trans
      ((State.csuNotice_frame _ _ _).mono (by decide))
  · exact (s.storePoint_frame _ _ _ _ _).mono (by decide)

theorem State.losePoint_frame (p : PointNo) (t : Time) :
    Frame pointBlocks s (s.losePoint p t) := by
  unfold State.losePoint
  dsimp only
  split
  · exact (s.setPointRec_frame _ _).mono (by decide)
  · exact s.handOn_frame _ _ _ _

theorem State.traceSample_frame (p : PointNo) (l : TraceLevels) (t : Time) :
    Frame [.pe, .cq] s (s.traceSample p l t) := by
  unfold State.traceSample
  split
  · refine Frame.trans ((s.handTrace_frame t p l).mono (by decide)) ?_
    exact ⟨fun b hb => by cases b <;> first | rfl | exact absurd (by decide) hb, rfl⟩
  · exact Frame.refl _ s

theorem State.arriveAt_frame (arr : BankImage) (p : PointNo) :
    Frame pointBlocks s (s.arriveAt arr p) := by
  unfold State.arriveAt
  dsimp only
  split
  · split
    · exact Frame.refl _ s
    · exact (s.handOn_frame _ _ _ _).trans ((State.traceSample_frame _ _ _ _).mono (by decide))
  · exact s.losePoint_frame _ _

theorem noticePoint_frame (t : Time) (s : State) (set : List PointNo) (p : PointNo) :
    Frame pointBlocks s (noticePoint t (s, set) p).1 := by
  unfold noticePoint
  simp only
  split
  · exact Frame.refl _ s
  · exact s.losePoint_frame p t

theorem noticePoints_frame (t : Time) (l : List PointNo) (s : State) (set : List PointNo) :
    Frame pointBlocks s (l.foldl (noticePoint t) (s, set)).1 := by
  induction l generalizing s set with
  | nil => exact Frame.refl _ s
  | cons p l ih => exact (noticePoint_frame t s set p).trans (ih _ _)

/-- What a notice to the PE may touch (R8). -/
abbrev noticeBlocks : List Block := [.pe, .groups, .age, .channels, .slots, .cq]

/-- A module notice touches points, groups, slots, channels and the queue alone (R8). -/
theorem State.moduleNotice_frame (m : ModuleNo) (t : Time) :
    Frame noticeBlocks s (s.moduleNotice m t) :=
  ((noticePoints_frame t _ s []).mono (by decide)).trans
    ((State.ageNotice_frame _ _ _).mono (by decide))

theorem State.setSubstitute_frame (p : PointNo) (v : Option StateValue) (x : PointExtra) :
    Frame [.pe, .cq] s (s.setSubstitute p v x) :=
  s.storePoint_frame _ _ _ _ _

/-- What a SUBSTITUTE or a RELEASE may touch (R15, R16). -/
abbrev substituteBlocks : List Block := [.pe, .groups, .age, .cq]

theorem State.imposeSubstitute_frame (p : PointNo) (v : StateValue) :
    Frame substituteBlocks s (s.imposeSubstitute p v) := by
  unfold State.imposeSubstitute
  dsimp only
  split
  · exact ((s.setSubstitute_frame _ _ _).mono (by decide)).trans
      ((State.ageChange_frame _ _ _).mono (by decide))
  · exact (s.setSubstitute_frame _ _ _).mono (by decide)

theorem State.removeSubstitute_frame (p : PointNo) :
    Frame substituteBlocks s (s.removeSubstitute p) := by
  unfold State.removeSubstitute
  dsimp only
  split
  · exact ((s.setSubstitute_frame _ _ _).mono (by decide)).trans
      ((State.ageChange_frame _ _ _).mono (by decide))
  · exact (s.setSubstitute_frame _ _ _).mono (by decide)

/-! ### SLC -/

/-- What the end of a scan and an image arrival may touch. -/
abbrev scanBlocks : List Block := [.slc, .pe, .groups, .age, .channels, .slots, .cq]

theorem State.takeArrival_frame (arr : BankImage) (rest : List BankImage) :
    Frame scanBlocks s (s.takeArrival arr rest) := by
  unfold State.takeArrival
  dsimp only
  refine Frame.trans ?_ ((State.ageArrival_frame _ _ _).mono (by decide))
  refine Frame.trans (t := (s.pointsOn arr.mod).foldl (fun s p => s.arriveAt arr p) s) ?_ ?_
  · exact (Frame.foldl _ (fun s p => s.arriveAt_frame arr p) _ s).mono (by decide)
  · exact ⟨fun b hb => by cases b <;> first | rfl | exact absurd (by decide) hb, rfl⟩

theorem State.stateNotices_frame (m : ModuleNo) (new : ModuleState) (t : Time) :
    Frame noticeBlocks s (s.stateNotices m new t) := by
  unfold State.stateNotices
  split
  · exact s.moduleNotice_frame m t
  · split
    · exact ((s.oduModuleLost_frame m).mono (by decide)).trans
        ((State.csuModuleLost_frame _ _ _).mono (by decide))
    · exact Frame.refl _ s
  · exact Frame.refl _ s

theorem State.moduleRecord_frame (m : ModuleNo) (old new : ModuleState) (t : Time) :
    Frame [.cq] s (s.moduleRecord m old new t) := by
  unfold State.moduleRecord
  split
  · exact s.hand_frame _ _
  · exact Frame.refl _ s

theorem State.startCycle_frame (late : Bool) : Frame [.slc] s (s.startCycle late) := by
  unfold State.startCycle
  split
  · exact Frame.refl _ s
  · exact ⟨fun b hb => by cases b <;> first | rfl | exact absurd (by decide) hb, rfl⟩

theorem State.finishIfDone_frame : Frame [.slc] s s.finishIfDone := by
  unfold State.finishIfDone
  split
  · exact Frame.refl _ s
  · split
    · exact Frame.refl _ s
    · refine (s.setCycle_frame none).trans ?_
      simp only
      split
      · exact State.startCycle_frame _ _
      · exact Frame.refl _ _

theorem State.endHold_frame : Frame [.slc] s s.endHold := by
  unfold State.endHold
  split
  · exact Frame.refl _ s
  · split
    · exact (s.setCycle_frame _).trans (State.finishIfDone_frame _)
    · exact Frame.refl _ s

theorem State.endScan_frame (m : ModuleNo) : Frame [.slc] s (s.endScan m) := by
  unfold State.endScan
  split
  · exact Frame.refl _ s
  · exact (s.setCycle_frame _).trans (State.finishIfDone_frame _)

/-- A module's new record and its MODULE record (R84 step 1). -/
theorem State.storeModule_frame (m : ModuleNo) (r : ModuleRec) (old new : ModuleState) (t : Time) :
    Frame scanBlocks s ((s.setModuleRec m r).moduleRecord m old new t) :=
  ((s.setModuleRec_frame _ _).mono (by decide)).trans
    ((State.moduleRecord_frame _ _ _ _ _).mono (by decide))

theorem State.missScan_frame (m : ModuleNo) (t : Time) : Frame scanBlocks s (s.missScan m t) := by
  unfold State.missScan
  dsimp only
  refine Frame.trans ?_ ((State.endScan_frame _ m).mono (by decide))
  split
  · exact (s.storeModule_frame _ _ _ _ _).trans
      ((State.stateNotices_frame _ _ _ _).mono (by decide))
  · exact s.storeModule_frame _ _ _ _ _

theorem State.setLineClock_frame (clock : Micros) : Frame [.slc] s (s.setLineClock clock) :=
  ⟨fun b hb => by cases b <;> first | rfl | exact absurd (by decide) hb, rfl⟩

theorem State.failAttempt_frame (c : Cycle) (sc : Scan) (t : Time) :
    Frame scanBlocks s (s.failAttempt c sc t) := by
  unfold State.failAttempt
  split
  · exact (s.setCycle_frame _).mono (by decide)
  · exact s.missScan_frame _ _

theorem State.placeImage_frame (i : BankImage) : Frame [.slc] s (s.placeImage i) := by
  unfold State.placeImage
  split
  · exact ⟨fun b hb => by cases b <;> first | rfl | exact absurd (by decide) hb, rfl⟩
  · exact Frame.refl _ s

theorem State.acceptInput_frame (m : ModuleNo) (l : BitVec 64) (w : Bool) (t : Time) :
    Frame scanBlocks s (s.acceptInput m l w t) := by
  unfold State.acceptInput
  dsimp only
  refine Frame.trans ?_ ((State.endScan_frame _ m).mono (by decide))
  have notice (c : Prop) [Decidable c] (u : State) (h : Frame scanBlocks s u) :
      Frame scanBlocks s (if c then u.moduleNotice m t else u) := by
    split
    · exact h.trans ((u.moduleNotice_frame m t).mono (by decide))
    · exact h
  split
  · exact Frame.trans (notice _ _ (s.storeModule_frame _ _ _ _ _))
      ((State.placeImage_frame _ _).mono (by decide))
  · exact notice _ _ (s.storeModule_frame _ _ _ _ _)

theorem State.acceptDrive_frame (m : ModuleNo) (l : BitVec 32) (t : Time) :
    Frame scanBlocks s (s.acceptDrive m l t) := by
  unfold State.acceptDrive
  dsimp only
  refine Frame.trans (Frame.trans ?_ ((State.oduReadback_frame _ m l t).mono (by decide)))
    ((State.endScan_frame _ m).mono (by decide))
  split
  · exact (s.storeModule_frame _ _ _ _ _).trans
      ((State.stateNotices_frame _ _ _ _).mono (by decide))
  · exact s.storeModule_frame _ _ _ _ _

theorem State.judgeReply_frame (m : ModuleNo) (u : Use) (d : List Byte) :
    Frame scanBlocks s (s.judgeReply m u d) := by
  unfold State.judgeReply
  simp only
  split
  · exact s.missScan_frame _ _
  · split
    · exact s.acceptInput_frame _ _ _ _
    · exact s.acceptDrive_frame _ _ _
    · exact Frame.refl _ s

/-- A counter of the polled module raised, and the attempt failed (R76, R77). -/
theorem State.countFailure_frame (clock : Micros) (m : ModuleNo) (r : ModuleRec) (c : Cycle)
    (sc : Scan) (t : Time) :
    Frame scanBlocks s (((s.setLineClock clock).setModuleRec m r).failAttempt c sc t) :=
  ((s.setLineClock_frame clock).mono (by decide)).trans
    (((State.setModuleRec_frame _ _ _).mono (by decide)).trans (State.failAttempt_frame _ _ _ _))

/-- What taking a whole reply may touch (R77 to R80). -/
theorem State.takeReply_frame (u : Use) (reply : Reply) {t : State}
    (h : s.takeReply u reply = some t) : Frame scanBlocks s t := by
  unfold State.takeReply at h
  split at h
  · simp at h
  · simp only at h
    split at h
    · simp at h
    · split at h
      · cases h
        exact s.countFailure_frame _ _ _ _ _ _
      · cases h
        exact s.countFailure_frame _ _ _ _ _ _
      · split at h
        · cases h
          exact ((s.setLineClock_frame _).mono (by decide)).trans (State.judgeReply_frame _ _ _ _)
        · simp at h

/-! ### DLI and TS -/

theorem State.assemble_frame : Frame [.cq, .dli] s s.assemble :=
  ⟨fun b hb => by cases b <;> first | rfl | exact absurd (by decide) hb, rfl⟩

/-- The transmitter's next work touches the queue and the DLI alone (R142). -/
theorem State.transmitNext_frame : Frame [.cq, .dli] s s.transmitNext := by
  unfold State.transmitNext
  split
  · exact Frame.refl _ s
  · split
    · exact ⟨fun b hb => by cases b <;> first | rfl | exact absurd (by decide) hb, rfl⟩
    · split
      · exact s.assemble_frame
      · exact Frame.refl _ s

/-- What an event does at most: nothing, or its own effect and then the transmitter's work. -/
theorem State.occur_cases {event : State → Option State} {t : State}
    (h : s.occur event = .next t) :
    t = s ∨ ∃ u, s.resetHeld = false ∧ event s = some u ∧ t = u.transmitNext := by
  unfold State.occur at h
  split at h
  · left; simpa using h.symm
  · next hr =>
    split at h
    · left; simpa using h.symm
    · next u hu => exact .inr ⟨u, by simpa using hr, hu, by simpa using h.symm⟩

/-- Every event answers a next state. -/
theorem State.occur_next (event : State → Option State) : ∃ t, s.occur event = .next t := by
  unfold State.occur
  split
  · exact ⟨s, rfl⟩
  · split <;> exact ⟨_, rfl⟩

/-- The frame of an event from the frame of its own effect. -/
theorem State.occur_frame {event : State → Option State} {l : List Block} {t : State}
    (hl : [.cq, .dli] ⊆ l) (he : ∀ u, event s = some u → Frame l s u)
    (h : s.occur event = .next t) : Frame l s t := by
  rcases s.occur_cases h with rfl | ⟨u, _, hu, rfl⟩
  · exact Frame.refl _ _
  · exact (he u hu).trans (u.transmitNext_frame.mono hl)

/-- What the dispatch of a telegram does at most: it answers BAD_LENGTH or NOT_PERMITTED, or its owner
takes it (R137). -/
theorem State.dispatch_cases {k : DeskKind} {takes : List Byte → Bool}
    {owner : RxTelegram → State → State} {u : State} (h : State.dispatch k takes owner s = some u) :
    ∃ t, s.dispatchable = some t ∧ DeskKind.ofByte t.kind = some k ∧ takes t.body ∧
      ((k.lengthAllowed t.body = false ∧ u = s.freeBuffer.answer t.kind .badLength) ∨
       (k.lengthAllowed t.body ∧ k.permitted s.ts.mode = false ∧
          u = s.freeBuffer.answer t.kind .notPermitted) ∨
       (k.lengthAllowed t.body ∧ k.permitted s.ts.mode ∧ u = owner t s.freeBuffer)) := by
  unfold State.dispatch at h
  split at h
  · simp at h
  · next t ht =>
    split at h
    · next hk =>
      simp only [Bool.and_eq_true, decide_eq_true_eq] at hk
      refine ⟨t, ht, hk.1, hk.2, ?_⟩
      simp only [Option.some.injEq] at h
      unfold State.dispatchTo at h
      simp only at h
      cases hl : k.lengthAllowed t.body with
      | false => left; simp_all
      | true =>
        right
        cases hp : k.permitted s.ts.mode with
        | false => left; simp_all
        | true => right; simp_all
    · simp at h

/-- The frame of a dispatch from the frame of its owner. -/
theorem State.dispatch_frame {k : DeskKind} {takes : List Byte → Bool}
    {owner : RxTelegram → State → State} {l : List Block} {u : State} (hl : [.dli] ⊆ l)
    (ho : ∀ t s, Frame l s (owner t s)) (h : State.dispatch k takes owner s = some u) :
    Frame l s u := by
  obtain ⟨t, _, _, _, h | h | h⟩ := s.dispatch_cases h
  · rw [h.2]
    exact ((s.freeBuffer_frame).trans (State.answer_frame _ _ _ _)).mono hl
  · rw [h.2.2]
    exact ((s.freeBuffer_frame).trans (State.answer_frame _ _ _ _)).mono hl
  · rw [h.2.2]
    exact (s.freeBuffer_frame.mono hl).trans (ho t _)

theorem State.swapGrid_frame (first : Bool) (old new : Tables) :
    Frame [.slc] s (s.swapGrid first old new) := by
  unfold State.swapGrid
  split
  · exact ⟨fun b hb => by cases b <;> first | rfl | exact absurd (by decide) hb, rfl⟩
  · split
    · exact ⟨fun b hb => by cases b <;> first | rfl | exact absurd (by decide) hb, rfl⟩
    · exact Frame.refl _ s

theorem State.swapSilence_frame (first : Bool) (old new : Tables) :
    Frame [.dli] s (s.swapSilence first old new) := by
  unfold State.swapSilence
  split
  · exact ⟨fun b hb => by cases b <;> first | rfl | exact absurd (by decide) hb, rfl⟩
  · exact Frame.refl _ s

theorem State.swapMode_frame (first : Bool) : Frame [.ts] s (s.swapMode first) := by
  unfold State.swapMode
  split
  · exact ⟨fun b hb => by cases b <;> first | rfl | exact absurd (by decide) hb, rfl⟩
  · exact Frame.refl _ s

/-- What the swap may touch (R155). -/
abbrev swapBlocks : List Block := [.ts, .slc, .pe, .groups, .channels, .cq, .dli]

theorem State.swap_frame : Frame swapBlocks s s.swap := by
  unfold State.swap
  exact (s.swapBanks_frame.mono (by decide)).trans (((State.swapRecords_frame _ _ _).mono
    (by decide)).trans (((State.swapGrid_frame _ _ _ _).mono (by decide)).trans
    (((State.swapSilence_frame _ _ _ _).mono (by decide)).trans (((State.startRefresh_frame _).mono
    (by decide)).trans ((State.swapMode_frame _ _).mono (by decide))))))

theorem State.withdrawCommit_frame : Frame [.ts, .slc, .dli] s s.withdrawCommit := by
  unfold State.withdrawCommit
  split
  · refine Frame.trans ?_ ((State.endHold_frame _).mono (by decide))
    exact ⟨fun b hb => by cases b <;> first | rfl | exact absurd (by decide) hb, rfl⟩
  · exact Frame.refl _ s

theorem State.leaveMaintenance_frame : Frame [.ts, .slc, .dli] s s.leaveMaintenance := by
  unfold State.leaveMaintenance
  refine Frame.trans ?_ (State.withdrawCommit_frame _)
  exact ⟨fun b hb => by cases b <;> first | rfl | exact absurd (by decide) hb, rfl⟩

end Sys2Proof.Machine
end

