-- ==== Sys2Proof/Laws/Ops.lean ====
section
/-! SUPPORT. What each shared operation can do, said once: the cases of handing on, of a set code
request, of the transmitter's work, of the cycle and of the ends of an attempt, the patterns of a group, the
searches by number, the dispatch of an obeyed telegram, and the numbers of the layouts. -/

namespace Sys2Proof.Machine

/-! ### What a frame says of the accessors -/

theorem Frame.now_eq {l : List Block} {s t : State} (h : Frame l s t) (hb : .tb ∉ l) :
    t.now = s.now := congrArg TimeBase.elapsed (h.blocks .tb hb)

theorem Frame.system_eq {l : List Block} {s t : State} (h : Frame l s t) (hb : .ts ∉ l) :
    t.system = s.system := congrArg (fun ts => TableStore.active ts |>.system) (h.blocks .ts hb)

theorem Frame.useOf_eq {l : List Block} {s t : State} (h : Frame l s t) (hb : .ts ∉ l)
    (m : ModuleNo) : t.useOf m = s.useOf m :=
  congrArg (fun ts => (TableStore.active ts |>.moduleEntry m).use) (h.blocks .ts hb)

theorem Frame.moduleRec_eq {l : List Block} {s t : State} (h : Frame l s t) (hb : .slc ∉ l)
    (m : ModuleNo) : t.moduleRec m = s.moduleRec m :=
  congrArg (fun x => Table.get ModuleRec.init (ScanLine.modules x) m) (h.blocks .slc hb)

theorem Frame.pointRec_eq {l : List Block} {s t : State} (h : Frame l s t) (hb : .pe ∉ l)
    (p : PointNo) : t.pointRec p = s.pointRec p :=
  congrArg (fun x => Table.get PointRecord.init (PointEvaluator.points x) p) (h.blocks .pe hb)

theorem Frame.groupRec_eq {l : List Block} {s t : State} (h : Frame l s t) (hb : .groups ∉ l)
    (g : GroupNo) : t.groupRec g = s.groupRec g :=
  congrArg (fun x => Table.get GroupRecord.init x g) (h.blocks .groups hb)

theorem Frame.channelBank_eq {l : List Block} {s t : State} (h : Frame l s t) (hb : .channels ∉ l)
    (m : ModuleNo) : t.channelBank m = s.channelBank m :=
  congrArg (fun x => Table.get none x m) (h.blocks .channels hb)

theorem Frame.channel_eq {l : List Block} {s t : State} (h : Frame l s t) (hb : .channels ∉ l)
    (m : ModuleNo) (j : ChannelNo) : t.channel m j = s.channel m j := by
  unfold State.channel; rw [h.channelBank_eq hb]

theorem Frame.slot_eq {l : List Block} {s t : State} (h : Frame l s t) (hb : .slots ∉ l)
    (k : SlotNo) : t.slot k = s.slot k :=
  congrArg (fun x => Table.get none x k) (h.blocks .slots hb)

theorem Frame.pointDeliverable_eq {l : List Block} {s t : State} (h : Frame l s t) (hb : .slc ∉ l)
    (e : PointEntry) : t.pointDeliverable e = s.pointDeliverable e := by
  unfold State.pointDeliverable State.contactDeliverable; simp only [h.moduleRec_eq hb]

theorem Frame.lossCause_eq {l : List Block} {s t : State} (h : Frame l s t) (hb : .slc ∉ l)
    (e : PointEntry) : t.lossCause e = s.lossCause e := by
  unfold State.lossCause; simp only [h.moduleRec_eq hb]

variable (s : State)

/-! ### Handing a record to the Change Queue (R124 to R127) -/

theorem State.hand_cases (t : Time) (content : RecordContent) :
    (s.cq.queue.length < 256 ∧ s.hand t content =
      { s with cq := { s.cq with queue := s.cq.queue ++ [s.record t content] } }) ∨
    (256 ≤ s.cq.queue.length ∧ s.hand t content = s.overflowQueue) := by
  unfold State.hand Config.queueCapacity
  split
  · next h => exact .inl ⟨h, rfl⟩
  · next h => exact .inr ⟨Nat.le_of_not_lt h, rfl⟩

theorem State.handTrace_cases (t : Time) (p : PointNo) (levels : TraceLevels) :
    (s.system.watermark ≤ s.cq.queue.length ∧
      s.handTrace t p levels = { s with cq := { s.cq with traceGap := true } }) ∨
    (s.cq.queue.length < s.system.watermark ∧ s.handTrace t p levels = { s with cq := { s.cq with
      queue := s.cq.queue ++ [s.record t (.trace p levels s.cq.traceGap)], traceGap := false } }) := by
  unfold State.handTrace
  split
  · next h => exact .inl ⟨h, rfl⟩
  · next h => exact .inr ⟨Nat.lt_of_not_le h, rfl⟩

/-! ### Set code (R92) -/

theorem State.setCode_cases (m : ModuleNo) (j : ChannelNo) (code : DriveCode) :
    s.setCode m j code = s ∨
    ∃ ch mismatch, s.channel m j = some ch ∧ ch.condition = .normal mismatch ∧ ch.drive ≠ code ∧
      s.setCode m j code =
        s.setChannel m j { ch with drive := code, condition := .normal none } := by
  unfold State.setCode
  split
  · exact .inl rfl
  · next ch hch =>
    split
    · exact .inl rfl
    · next mismatch hc =>
      split
      · exact .inl rfl
      · next hd => exact .inr ⟨ch, mismatch, hch, hc, hd, rfl⟩

/-! ### The transmitter's work (R142) -/

theorem State.transmitNext_cases :
    s.transmitNext = s ∨
    (∃ a rest, s.dli.transmitter = none ∧ s.dli.answers = a :: rest ∧ s.transmitNext =
      { s with dli := { s.dli with answers := rest, transmitter := some (.answer a) } }) ∨
    (s.dli.transmitter = none ∧ s.dli.answers = [] ∧ s.dli.restarting = false ∧
      s.dli.expiryOpen = false ∧ s.cqOffers = true ∧ s.transmitNext = s.assemble) := by
  unfold State.transmitNext
  split
  · exact .inl rfl
  · next ht =>
    split
    · next a rest ha => exact .inr (.inl ⟨a, rest, ht, ha, rfl⟩)
    · next ha =>
      split
      · next h =>
        simp only [State.mayIndicate, Bool.and_eq_true, Bool.not_eq_true'] at h
        exact .inr (.inr ⟨ht, ha, h.1.1, h.1.2, h.2, rfl⟩)
      · exact .inl rfl

/-! ### The cycle (R69 to R72) -/

theorem State.startCycle_cases (late : Bool) :
    (s.slc.nextDue = none ∧ s.startCycle late = s) ∨
    ∃ due, s.slc.nextDue = some due ∧ s.startCycle late = { s with slc := { s.slc with
      nextDue := some (nextGridPoint due s.now s.system.scanPeriod)
      lateWaiting := false
      cycle :=
        if s.ts.commitPending || (s.usedFrom 0).isSome then
          some { start := s.now, held := s.ts.commitPending, next := 0, scan := none }
        else none
      cycleOverruns := if late then bump s.slc.cycleOverruns else s.slc.cycleOverruns } } := by
  unfold State.startCycle
  split
  · next h => exact .inl ⟨h, rfl⟩
  · next due h => exact .inr ⟨due, h, rfl⟩

theorem State.finishIfDone_cases :
    s.finishIfDone = s ∨
    ∃ c, s.slc.cycle = some c ∧ c.held = false ∧ c.scan = none ∧ s.usedFrom c.next = none ∧
      ((s.startOverdue = false ∧ s.finishIfDone = s.setCycle none) ∨
       (s.startOverdue = true ∧ s.finishIfDone = (s.setCycle none).startCycle true)) := by
  unfold State.finishIfDone
  split
  · exact .inl rfl
  · next c hc =>
    split
    · exact .inl rfl
    · next h =>
      simp only [Bool.or_eq_true, not_or, Bool.not_eq_true, Option.isSome_eq_false_iff,
        Option.isNone_iff_eq_none] at h
      refine .inr ⟨c, hc, h.1.1, h.1.2, h.2, ?_⟩
      have : (s.setCycle none).startOverdue = s.startOverdue := rfl
      simp only [this]
      cases s.startOverdue
      · exact .inl ⟨rfl, rfl⟩
      · exact .inr ⟨rfl, rfl⟩

theorem State.startCycle_modules (late : Bool) : (s.startCycle late).slc.modules = s.slc.modules := by
  rcases s.startCycle_cases late with ⟨_, h⟩ | ⟨_, _, h⟩ <;> rw [h]

theorem State.startCycle_banks (late : Bool) : (s.startCycle late).slc.banks = s.slc.banks := by
  rcases s.startCycle_cases late with ⟨_, h⟩ | ⟨_, _, h⟩ <;> rw [h]

theorem State.finishIfDone_modules : s.finishIfDone.slc.modules = s.slc.modules := by
  rcases s.finishIfDone_cases with h | ⟨_, _, _, _, _, ⟨_, h⟩ | ⟨_, h⟩⟩
  · rw [h]
  · rw [h]; rfl
  · rw [h, State.startCycle_modules]; rfl

theorem State.finishIfDone_banks : s.finishIfDone.slc.banks = s.slc.banks := by
  rcases s.finishIfDone_cases with h | ⟨_, _, _, _, _, ⟨_, h⟩ | ⟨_, h⟩⟩
  · rw [h]
  · rw [h]; rfl
  · rw [h, State.startCycle_banks]; rfl

theorem State.endScan_modules (m : ModuleNo) : (s.endScan m).slc.modules = s.slc.modules := by
  unfold State.endScan
  split
  · rfl
  · rw [State.finishIfDone_modules]; rfl

theorem State.endScan_banks (m : ModuleNo) : (s.endScan m).slc.banks = s.slc.banks := by
  unfold State.endScan
  split
  · rfl
  · rw [State.finishIfDone_banks]; rfl

theorem State.endHold_modules : s.endHold.slc.modules = s.slc.modules := by
  unfold State.endHold
  split
  · rfl
  · split
    · rw [State.finishIfDone_modules]; rfl
    · rfl

theorem State.failAttempt_cases (c : Cycle) (sc : Scan) (t : Time) :
    (sc.sent < 1 + s.system.retries ∧ s.failAttempt c sc t =
      s.setCycle (some { c with scan := some { sc with line := .toSend } })) ∨
    (1 + s.system.retries ≤ sc.sent ∧ s.failAttempt c sc t = s.missScan sc.mod t) := by
  unfold State.failAttempt
  split
  · next h => exact .inl ⟨h, rfl⟩
  · next h => exact .inr ⟨Nat.le_of_not_lt h, rfl⟩

/-! ### The AGE's work (R57, R58) -/

/-- A record handed on does not look at the AGE's unfinished work. -/
theorem State.hand_setHandOvers (hs : List HandOver) (t : Time) (content : RecordContent) :
    (s.setHandOvers hs).hand t content = (s.hand t content).setHandOvers hs := by
  rcases s.hand_cases t content with ⟨h, e⟩ | ⟨h, e⟩ <;>
    rcases (s.setHandOvers hs).hand_cases t content with ⟨h', e'⟩ | ⟨h', e'⟩
  · rw [e, e']; rfl
  · exact absurd h (Nat.not_lt.mpr h')
  · exact absurd h' (Nat.not_lt.mpr h)
  · rw [e, e']; rfl

theorem State.evaluateGroup_setHandOvers (hs : List HandOver) (arrival : Bool) (t : Time)
    (g : GroupNo) : (s.setHandOvers hs).evaluateGroup arrival t g =
      (s.evaluateGroup arrival t g).setHandOvers hs := by
  unfold State.evaluateGroup
  have key (r : GroupRecord) : (s.setHandOvers hs).setGroupRec g r =
      (s.setGroupRec g r).setHandOvers hs := rfl
  simp only [key, State.hand_setHandOvers]
  exact (apply_ite (State.setHandOvers · hs) _ _ _).symm

theorem State.foldl_setHandOvers {α : Type} (hs : List HandOver) (f : State → α → State)
    (hf : ∀ s a, f (s.setHandOvers hs) a = (f s a).setHandOvers hs) (l : List α) (s : State) :
    l.foldl f (s.setHandOvers hs) = (l.foldl f s).setHandOvers hs := by
  induction l generalizing s with
  | nil => rfl
  | cons a l ih => rw [List.foldl_cons, hf, ih, List.foldl_cons]

/-- A hand-over's work does not look at the unfinished hand-overs. -/
theorem State.workHandOver_setHandOvers (hs : List HandOver) (h : HandOver) :
    (s.setHandOvers hs).workHandOver h = (s.workHandOver h).setHandOvers hs := by
  unfold State.workHandOver
  rw [State.foldl_setHandOvers hs _ fun s g => State.evaluateGroup_setHandOvers s hs _ _ g,
    State.foldl_setHandOvers hs _ fun _ _ => rfl]

/-- An AGE in step with the events finishes a hand-over within the event that makes it (R58). -/
theorem State.AgeInStep.handOver_eq {s : State} (h : s.AgeInStep) (w : HandOver) :
    s.handOver w = s.workHandOver w := by
  have hn : s.age = { handOvers := [], pace := [] } := by
    cases hs : s.age with
    | mk a b => simp [← h.finished, ← h.pace, hs]
  have hw : (s.workHandOver w).age = s.age := (State.workHandOver_frame s w).blocks .age (by decide)
  have : s.handOver w = ((s.setHandOvers [w]).workHandOver w).setHandOvers [] := by
    simp [State.handOver, hn, State.ageFinish, State.setHandOvers]
  rw [this, State.workHandOver_setHandOvers]
  generalize s.workHandOver w = u at hw
  show ({ u with age := { u.age with handOvers := [] } } : State) = u
  rw [hw, hn, ← hn, ← hw]

/-- An AGE at the pace 0 leaves a hand-over for later (R58, log entry 11). -/
theorem State.handOver_deferred {s : State} {pace : List Nat} (h : s.age.pace = 0 :: pace)
    (w : HandOver) : s.handOver w =
      { s with age := { handOvers := s.age.handOvers ++ [w], pace := pace } } := by
  simp [State.handOver, h, State.ageTurns, State.setHandOvers]

/-! ### The ends of an attempt on the line clock (R76) -/

theorem State.timeoutDue_eq_some (clock : Micros) : s.timeoutDue = some clock ↔
    ∃ c sc, s.scanIn .awaiting = some (c, sc) ∧ s.clockAt (s.windowEnd sc) = some clock ∧
      s.windowEnded sc clock = true := by
  unfold State.timeoutDue
  split
  · simp_all
  · next c sc h => simp [h, Option.filter_eq_some_iff]

theorem State.receptionOverdue_eq_some (clock : Micros) : s.receptionOverdue = some clock ↔
    ∃ c sc, s.scanIn .receiving = some (c, sc) ∧ s.clockAt (s.silenceEnd sc) = some clock ∧
      s.silentPast sc clock = true := by
  unfold State.receptionOverdue
  split
  · simp_all
  · next c sc h => simp [h, Option.filter_eq_some_iff]

/-- A moment that lies within the present millisecond or before it has a reading of the line clock at which
it has been reached. -/
theorem State.clockAt_later (a : LineTime) (n : Nat) (h : (n : Int) ≤ a.microsTo ⟨s.now, 999⟩) :
    ∃ k, s.clockAt (a.later n) = some k ∧ s.slc.lineClock ≤ k ∧ (n : Int) ≤ a.microsTo ⟨s.now, k⟩ := by
  obtain ⟨ms, mi⟩ := a
  have hmi := mi.isLt
  simp only [LineTime.microsTo] at h
  have hd0 : 0 ≤ (s.now - ms).toInt := by
    have : ((999 : Micros).val : Int) = 999 := rfl
    omega
  obtain ⟨d, hd⟩ : ∃ d, d = (s.now - ms).toNat := ⟨_, rfl⟩
  have hlt : d < 2147483648 := by
    have h2 := (s.now - ms).isLt
    rw [BitVec.toInt_eq_toNat_cond] at hd0
    split at hd0 <;> omega
  have hti : (s.now - ms).toInt = d := by
    rw [BitVec.toInt_eq_toNat_cond, if_pos (by omega), hd]
  rw [hti] at h
  have h999 : ((999 : Micros).val : Int) = 999 := rfl
  have hq : (mi.val + n) / 1000 ≤ d := by omega
  have hnow : s.now = ms + BitVec.ofNat 32 d := by
    rw [hd, BitVec.ofNat_toNat, BitVec.setWidth_eq]; exact (add_sub_cancel ms s.now).symm
  have hint : interval (after ms ((mi.val + n)/1000)) s.now = d - (mi.val+n)/1000 := by
    unfold interval after
    rw [hnow]
    have : ms + BitVec.ofNat 32 d - (ms + BitVec.ofNat 32 ((mi.val+n)/1000)) = BitVec.ofNat 32 (d - (mi.val+n)/1000) := by
      apply BitVec.eq_of_toNat_eq
      simp [BitVec.toNat_sub]
      have := ms.isLt
      omega
    rw [this]; simp; omega
  unfold State.clockAt LineTime.later
  rw [if_pos (by simp only [reached]; rw [hint]; simp; omega)]
  refine ⟨_, rfl, ?_, ?_⟩
  · dsimp only; split
    · exact le_max_left _ _
    · exact le_refl _
  · dsimp only [LineTime.microsTo]
    rw [hti]
    split
    · next he =>
      have hdq : d = (mi.val+n)/1000 := by
        have := hint
        rw [he] at this
        simp [interval] at this
        omega
      have hm : (mi.val + n) % 1000 ≤ (max s.slc.lineClock ⟨(mi.val+n)%1000, Nat.mod_lt _ (by decide)⟩).val := by
        have : (⟨(mi.val+n)%1000, Nat.mod_lt _ (by decide)⟩ : Micros) ≤ max s.slc.lineClock ⟨(mi.val+n)%1000, Nat.mod_lt _ (by decide)⟩ := le_max_right _ _
        exact this
      omega
    · next he =>
      have : (mi.val+n)/1000 ≠ d := by
        intro hc; apply he; rw [hc]; exact hnow.symm
      omega

/-! ### Patterns and their range (R54, R60) -/

theorem GroupEntry.mem_patternRange (e : GroupEntry) (i : PatternNo) : i ∈ e.patternRange ↔
    e.firstPattern.val ≤ i.val ∧ i.val < e.firstPattern.val + e.patternCount := by
  simp only [GroupEntry.patternRange, List.mem_filterMap, List.mem_range]
  constructor
  · rintro ⟨k, hk, h⟩
    split at h
    · injection h with h
      rw [← h]
      constructor <;> simp only <;> omega
    · simp at h
  · rintro ⟨h1, h2⟩
    have h3 := i.isLt
    refine ⟨i.val - e.firstPattern.val, by omega, ?_⟩
    rw [dif_pos (by omega)]
    congr 1
    apply Fin.ext
    simp only
    omega

theorem GroupEntry.patternRange_pairwise (e : GroupEntry) : e.patternRange.Pairwise (· < ·) := by
  unfold GroupEntry.patternRange
  rw [List.pairwise_filterMap]
  refine List.pairwise_lt_range.imp fun {a b} hab x hx y hy => ?_
  split at hx
  · split at hy
    · injection hx with hx
      injection hy with hy
      rw [← hx, ← hy]
      exact Nat.add_lt_add_left hab _
    · simp at hy
  · simp at hx

theorem admits_iff (required : Option StateValue) (state : PointState) :
    admits required state = true ↔
      required = none ∨ ∃ v, required = some v ∧ state = .known v := by
  cases required <;> simp [admits]

/-! ### Searches by number -/

theorem find_finRange_eq_some {n : Nat} (p : Fin n → Bool) (i : Fin n) :
    (List.finRange n).find? p = some i ↔ p i = true ∧ ∀ j, j < i → p j = false := by
  rw [List.find?_eq_some_iff_getElem]
  constructor
  · rintro ⟨hi, k, hk, hki, hlt⟩
    refine ⟨hi, fun j hj => ?_⟩
    simp only [List.getElem_finRange] at hki
    have hv : k = i.val := by rw [← hki]; rfl
    have := hlt j.val (by rw [hv]; exact hj)
    simpa using this
  · rintro ⟨hi, hlt⟩
    refine ⟨hi, i.val, by simp, by simp, fun j hj => ?_⟩
    simpa using hlt ⟨j, by omega⟩ hj

theorem find_finRange_eq_none {n : Nat} (p : Fin n → Bool) :
    (List.finRange n).find? p = none ↔ ∀ j, p j = false := by
  simp [List.find?_eq_none]

/-- The lowest FREE slot (R106). -/
theorem State.lowestFree_eq_some (k : SlotNo) :
    s.lowestFree = some k ↔ s.slot k = none ∧ ∀ j, j < k → s.slot j ≠ none := by
  unfold State.lowestFree allSlots
  rw [find_finRange_eq_some]
  simp only [Option.isNone_iff_eq_none, Option.isNone_eq_false_iff, Option.isSome_iff_ne_none]

theorem State.lowestFree_eq_none : s.lowestFree = none ↔ ∀ k, s.slot k ≠ none := by
  unfold State.lowestFree allSlots
  rw [find_finRange_eq_none]
  simp only [Option.isNone_eq_false_iff, Option.isSome_iff_ne_none]

/-- No slot owns a channel (R104). -/
theorem State.ownerOf_eq_none (m : ModuleNo) (ch : ChannelNo) :
    s.ownerOf m ch = none ↔ ∀ k sl, s.slot k = some sl → ¬ (sl.mod = m ∧ sl.channel = ch) := by
  unfold State.ownerOf allSlots
  rw [find_finRange_eq_none]
  constructor
  · intro h k sl hk; have := h k; simp_all
  · intro h k
    cases hk : s.slot k with
    | none => rfl
    | some sl => have := h k sl hk; simp_all

/-- The lowest used module from a number on (R70). -/
theorem State.usedFrom_eq_some (n : Nat) (m : ModuleNo) :
    s.usedFrom n = some m ↔ s.NextUsed n m := by
  unfold State.usedFrom State.NextUsed
  rw [find_finRange_eq_some]
  constructor
  · rintro ⟨h, h'⟩
    simp only [ne_eq, Bool.and_eq_true, decide_eq_true_eq] at h
    refine ⟨h.1, h.2, fun k hk hkm => ?_⟩
    have := h' k hkm
    simp_all
  · rintro ⟨h1, h2, h3⟩
    refine ⟨by simp [h1, h2], fun j hj => ?_⟩
    by_cases hn : n ≤ j.val
    · simp [h3 j hn hj]
    · simp [hn]

theorem State.usedFrom_eq_none (n : Nat) :
    s.usedFrom n = none ↔ ∀ m : ModuleNo, n ≤ m.val → s.useOf m = .unused := by
  unfold State.usedFrom
  rw [find_finRange_eq_none]
  simp

/-! ### The slots of a fold over all slots -/

/-- Where an operation at one slot leaves every other slot and what it does at its own depends on that
slot alone, a fold over all slots does it at each. -/
theorem foldl_slots {f : State → SlotNo → State} {g : SlotNo → Option Slot → Option Slot}
    (own : ∀ s k, (f s k).slot k = g k (s.slot k))
    (other : ∀ s k j, j ≠ k → (f s k).slot j = s.slot j) (k : SlotNo) :
    (allSlots.foldl f s).slot k = g k (s.slot k) := by
  have key : ∀ (l : List SlotNo) (s : State), l.Nodup →
      (l.foldl f s).slot k = if k ∈ l then g k (s.slot k) else s.slot k := by
    intro l
    induction l with
    | nil => intro s _; simp
    | cons a l ih =>
      intro s hn
      simp only [List.nodup_cons] at hn
      simp only [List.foldl_cons, List.mem_cons]
      rw [ih (f s a) hn.2]
      by_cases hka : k = a
      · subst hka; simp [hn.1, own]
      · simp [hka, other s a k hka]
  have := key allSlots s (List.nodup_finRange 16)
  simpa [allSlots] using this

/-! ### Dispatch (R137) -/

theorem DeskKind.ofByte_byte (k : DeskKind) : DeskKind.ofByte k.byte = some k := by cases k <;> rfl

theorem State.Dispatches.dispatchable_eq {s : State} {t : RxTelegram} {rest : List RxTelegram}
    (h : s.Dispatches t rest) : s.dispatchable = some t := by
  simp [State.dispatchable, h.older, h.noAnswer, h.noRestart]

theorem State.Dispatches.freeBuffer_eq {s : State} {t : RxTelegram} {rest : List RxTelegram}
    (h : s.Dispatches t rest) : s.freeBuffer = s.answered rest [] := by
  simp only [State.freeBuffer, State.answered, h.older]
  simp [← h.noAnswer]

/-- An event that takes place has its effect, and then the transmitter its work. -/
theorem State.occur_eq {s s' : State} {event : State → Option State} (hr : s.Running)
    (h : event s = some s') : s.occur event = .next s'.transmitNext := by
  simp only [State.Running] at hr
  simp [State.occur, hr, h]

/-- An obeyed telegram reaches its owner. -/
theorem State.Obeys.dispatch_eq {s : State} {k : DeskKind} {body : List Byte} {received : Time}
    {rest : List RxTelegram} (h : s.Obeys k body received rest) {takes : List Byte → Bool}
    (ht : takes body = true) (owner : RxTelegram → State → State) :
    s.occur (State.dispatch k takes owner) =
      .next (owner ⟨k.byte, body, received⟩ (s.answered rest [])).transmitNext := by
  apply State.occur_eq h.dispatches.running
  have hp : k.permitted (s.answered rest []).ts.mode = true := h.permitted
  simp [State.dispatch, h.dispatches.dispatchable_eq, DeskKind.ofByte_byte, ht, State.dispatchTo,
    h.dispatches.freeBuffer_eq, h.length, hp]

@[simp] theorem State.answered_nil_answer (rest : List RxTelegram) (k : Byte) (st : AnswerStatus)
    (pl : List Byte) : (s.answered rest []).answer k st pl = s.answered rest [⟨k, st, pl⟩] := rfl

/-! ### Numbers of the layouts (R168) and clamping (R151) -/

theorem num16_u16 (n : Nat) (h : n < 65536) (rest : List Byte) : num16 (u16 n ++ rest) 0 = n := by
  simp [num16, num8, byteAt, u16]; omega

theorem num8_u8 (n : Nat) (h : n < 256) (rest : List Byte) : num8 (u8 n ++ rest) 0 = n := by
  simp [num8, byteAt, u8]; omega

theorem flagOf_eq_none (b : Byte) : flagOf b = none ↔ 2 ≤ b.toNat := by
  unfold flagOf
  split <;> simp_all
  omega

theorem clamp_inside (lo hi v : Nat) (h : lo ≤ v) (h' : v ≤ hi) : clamp lo hi v = (v, false) := by
  simp [clamp]; omega

theorem clampFin_inside (n : Nat) (v : Fin (n + 1)) : clampFin n v.val = (v, false) := by
  have := v.isLt
  simp only [clampFin, Prod.mk.injEq, decide_eq_false_iff_not, Nat.not_lt]
  exact ⟨by ext; simp; omega, by omega⟩

theorem flagOf_flag (b : Bool) (rest : List Byte) : flagOf (byteAt (flag b ++ rest) 0) = some b := by
  cases b <;> rfl

theorem StateValue.ofCode_code (v : StateValue) : StateValue.ofCode v.code = some v := by
  cases v <;> rfl

end Sys2Proof.Machine
end

