-- ==== Sys2Proof/Tests/Slice0.lean ====
section
/-! SUPPORT. The model's own tests: the checks of WellFormed, values the spec works out, one step of each
command on a small configuration, and for every obligation a state that meets its hypotheses. -/

namespace Sys2Proof.Tests

open Sys2Proof.Machine

set_option Elab.async false

/-! ### Helpers -/

/-- The state a command leaves. -/
def next (c : Instr) (s : State) : State :=
  match exec c s with
  | .next t => t
  | .fault _ => s
  | .refused _ => s

/-- Module 0 is INPUT and module 1 OUTPUT; point 0 is the SINGLE point of section 2.3's worked sequence,
point 1 the PAIR point of section 2.7's, point 2 the FLASHER of section 3.9's; group 0 has point 0 as its
member; control 0 is a proved PULSE, 1 a PULSE, 2 a SET and 3 a FLASH. -/
def bank : Tables :=
  { moduleMap := [(0, ⟨.input, 1⟩), (1, ⟨.output, 2⟩)]
    points :=
      [(0, { PointEntry.empty with
          cls := .single, report := true, pickFilter := 50, dropFilter := 30 }),
       (1, { PointEntry.empty with
          cls := .pair, a := ⟨0, 1, false⟩, b := ⟨0, 2, false⟩, report := true, pickFilter := 30,
          dropFilter := 30, transitLimit := 200, faultFilter := 100, alarmLimit := 35 }),
       (2, { PointEntry.empty with
          cls := .flasher, a := ⟨0, 3, false⟩, report := true, flashFilter := 20, halfMin := 300,
          halfMax := 700, target := 4 })]
    groups := [(0, { GroupEntry.empty with memberCount := 1, settleTime := 300, report := true })]
    patterns := [(0, { required := #v[some .on, none, none, none, none, none], aspect := 3 })]
    commands :=
      [(0, { CommandEntry.empty with
          defined := true, mod := 1, pulseTime := 2000, proving := some 1, expected := .up,
          provingTime := 4000, endOnProof := true }),
       (1, { CommandEntry.empty with defined := true, mod := 1, channel := 1, pulseTime := 100 }),
       (2, { CommandEntry.empty with defined := true, mod := 1, channel := 2, mode := .set }),
       (3, { CommandEntry.empty with defined := true, mod := 1, channel := 3, mode := .flash })]
    system := .defaults }

/-- The configured part in OPERATE at elapsed time 1000, both modules ACTIVE, no cycle in progress. -/
def live : State :=
  { State.reset with
    tb := { elapsed := 1000, offset := 5 }
    ts := { active := bank, shadow := bank, mode := .operate, commitPending := false,
            key := .presented }
    slc := { State.reset.slc with
      modules :=
        [(0, { ModuleRec.init with state := .active, good := 15, image := some ⟨0, 990⟩ }),
         (1, { ModuleRec.init with state := .active, good := 15, readback := some ⟨0, 990⟩ })]
      gridOrigin := some 0
      nextDue := some 1000 }
    channels := [(1, some [])]
    dli := { State.reset.dli with silenceStart := 900, lastSendEnd := 900 } }

/-- The same part in MAINTENANCE. -/
def upkeep : State := { live with ts := { live.ts with mode := .maintenance } }

/-- The same part in MAINTENANCE with a commit pending. -/
def committing : State := { upkeep with ts := { upkeep.ts with commitPending := true } }

/-- A telegram that waits in the receive buffers. -/
def holding (k : DeskKind) (body : List Byte) (s : State) : State :=
  { s with dli := { s.dli with buffers := [⟨k.byte, body, 990⟩] } }

theorem obeys {k : DeskKind} {body : List Byte} {s : State} (hr : s.Running)
    (ha : s.dli.answers = []) (hn : s.dli.restarting = false) (hl : k.lengthAllowed body = true)
    (hp : k.permitted s.ts.mode = true) : (holding k body s).Obeys k body 990 [] :=
  ⟨⟨hr, rfl, ha, hn⟩, hl, hp⟩

/-- The ANSWER that the transmitter sends. -/
def sent (s : State) : Option (Byte × AnswerStatus × List Byte) :=
  match s.dli.transmitter with
  | some (.answer a) => some (a.request, a.status, a.payload)
  | _ => none

/-- A scan of a module in a phase of the line, measured from the beginning of millisecond 1000; a reply runs
for the 140 microseconds of 14 bytes. -/
def scanOf (m : ModuleNo) (n : Nat) (line : LinePhase) : Scan :=
  { mod := m, sent := n, line := line, since := { ms := 1000, micros := 0 }, more := 130 }

/-- The cycle with that scan in progress. -/
def cycleOf (m : ModuleNo) (n : Nat) (line : LinePhase) : Cycle :=
  { start := 1000, held := false, next := m.val, scan := some (scanOf m n line) }

/-- A state whose scan of a module stands in a phase of the line. -/
def scanning (m : ModuleNo) (n : Nat) (line : LinePhase) (s : State) : State :=
  s.setCycle (some (cycleOf m n line))

/-- A state whose cycle start is held. -/
def heldStart (s : State) : State :=
  s.setCycle (some { start := 1000, held := true, next := 0, scan := none })

/-- A slot that holds control 0 in PROVING. -/
def proving : Slot :=
  { phase := .proving, control := 0, mod := 1, channel := 0, mode := .pulse,
    proving := some (1, .up), endOnProof := true, acceptedAt := 500, pulseEnd := some 900,
    deadline := some 1000, result := none }

/-- A slot that holds control 1 in DRIVING. -/
def driving : Slot :=
  { phase := .driving, control := 1, mod := 1, channel := 1, mode := .pulse, proving := none,
    endOnProof := false, acceptedAt := 500, pulseEnd := some 600, deadline := none, result := none }

/-! ### WellFormed: an ill-formed command for each check -/

theorem test_wf_telegram_short : (Instr.receiveTelegram [0, 1, 0x01, 0x2A, 0]).wellFormed = false := by
  decide

theorem test_wf_telegram_over_256 :
    (Instr.receiveTelegram ([1, 1, 0x06] ++ List.replicate 259 0)).wellFormed = false := by
  decide +kernel

theorem test_wf_telegram_256 :
    (Instr.receiveTelegram ([1, 0, 0x06] ++ List.replicate 258 0)).wellFormed = true := by
  decide +kernel

theorem test_wf_truncated_needs_gap : (Instr.receiveTruncated 5000).wellFormed = false := by decide

theorem test_wf_overlong_needs_257 : (Instr.receiveOverlong 256).wellFormed = false := by decide

theorem test_wf_input_reply_length :
    (Instr.inputReply ⟨[1, 0x21, 10, 0, 0, 0, 0, 0, 0, 0, 0, 0, 0, 0, 0], 0⟩).wellFormed = false := by decide

theorem test_wf_drive_reply_short : (Instr.driveReply ⟨[2, 0x22, 5, 0, 0, 0], 0⟩).wellFormed = false := by
  decide

theorem test_wf_key_withdrawal_stands : (Instr.keyWithdrawal 19).wellFormed = false := by decide

theorem test_wf_key_presented_stands : (Instr.keyPresented 19).wellFormed = false := by decide

/-! ### Values the spec works out -/

/-- CRC-16 with generator 1021H and initial value all ones has the check value 29B1H over the nine
characters 1 to 9 (hand calculation from the terms table). -/
theorem test_crc_check_value :
    crc16 [0x31, 0x32, 0x33, 0x34, 0x35, 0x36, 0x37, 0x38, 0x39] = 0x29B1#16 := by decide +kernel

/-- The example below R160. -/
theorem test_desk_time_wraps :
    { live with tb := { elapsed := 4294967000, offset := 1000 } }.deskTime 4294967000 = 704 := by
  decide

/-- The example below R161. -/
theorem test_time_set_example :
    (next .timeSet { live with dli := { live.dli with
      buffers := [⟨0x04, u32 1000000000, 3600000⟩] } }).tb.offset = 996400000 := by
  decide +kernel

/-- Section 2.3, sample 7110: ON is accepted at age 50. -/
theorem test_single_accepts_at_50 :
    ((bank.pointEntry 0).evalSingle
      { PointRecord.init with evaluated := .known .off, candidate := some ⟨.on, 7060⟩ } true
      7110).evaluated = .known .on := by decide +kernel

/-- Section 2.3, sample 7100: at age 40 the candidate is kept. -/
theorem test_single_keeps_at_40 :
    ((bank.pointEntry 0).evalSingle
      { PointRecord.init with evaluated := .known .off, candidate := some ⟨.on, 7060⟩ } true
      7100).candidate = some ⟨.on, 7060⟩ := by decide +kernel

/-- Section 2.7, slow transfer, sample 5040: the pending transfer is 40. -/
theorem test_pair_pending_40 :
    ((bank.pointEntry 1).evalPair
      { PointRecord.init with
        evaluated := .known .up, candidate := some ⟨.faultOpen, 5000⟩, openSince := some 5000 }
      false true 5040).1.pendingTransfer = some 40 := by decide +kernel

/-- Section 2.7, slow transfer, sample 5070: DOWN is accepted with transfer 40, slow. -/
theorem test_pair_slow_transfer :
    ((bank.pointEntry 1).evalPair
      { PointRecord.init with
        evaluated := .known .up, candidate := some ⟨.down, 5040⟩, pendingTransfer := some 40 }
      false true 5070).2 = some (40, true) := by decide +kernel

/-- Section 3.9, sample 3020: the fourth in-range half reaches FLASHING. -/
theorem test_flasher_reaches_flashing :
    ((bank.pointEntry 2).evalFlasher
      { PointRecord.init with
        evaluated := .known .dark, filteredLevel := some false, lastEdge := some 2520,
        levelCandidate := some ⟨true, 3000⟩, lastOnHalf := some 500, lastOffHalf := some 500,
        integration := 3 } true 3020).evaluated = .known .flashing := by decide +kernel

/-- R51: a flasher lost again while it was still UNKNOWN returns without its last edge, so the half across
the loss is not measured and nothing is confirmed at the edge. -/
theorem test_flasher_lost_again_starts_afresh :
    let r := PointRecord.lostAgain { PointRecord.init with
      evaluated := .unknown .module, filteredLevel := some true, lastEdge := some 2520 }
    (r.lastEdge = some 2520) ∧ (r.atSample.lastEdge = none) ∧
      (((bank.pointEntry 2).evalFlasher r.atSample true 4000).evaluated = .unknown .module) := by
  decide +kernel

/-- Section 3.9, sample 4720: an interval of 700 is within the maximum. -/
theorem test_flasher_quiet_at_700 :
    ((bank.pointEntry 2).evalFlasher
      { PointRecord.init with
        evaluated := .known .flashing, filteredLevel := some true, lastEdge := some 4020,
        integration := 4 } true 4720).evaluated = .known .flashing := by decide +kernel

/-- Section 3.9, sample 4730: an interval of 710 confirms LIT. -/
theorem test_flasher_quiet_at_710 :
    ((bank.pointEntry 2).evalFlasher
      { PointRecord.init with
        evaluated := .known .flashing, filteredLevel := some true, lastEdge := some 4020,
        integration := 4 } true 4730).evaluated = .known .lit := by decide +kernel

/-- The duty table of section 3.9. -/
theorem test_duty_table :
    [(dutyOf 500 500), (dutyOf 350 650), (dutyOf 300 700), (dutyOf 40000 40000),
     (dutyOf 65535 200), (dutyOf 200 65535)] = [50, 35, 30, 61, 100, 0] := by
  decide +kernel

/-- The grid of section 5.8: a start due at 100,010 that starts at 100,021 is followed by 100,030. -/
theorem test_next_due_after_late_start : nextGridPoint 100010 100021 10 = 100030 := by
  decide +kernel

/-- An entry at the limits of R151: a desk-silence time of 249 is stored as 0 and 250 as 500. -/
theorem test_clamp_silence : [clampSilence 249, clampSilence 250] = [(0, true), (500, true)] := by
  decide

/-! ### The commands: one step each -/

theorem test_power_on_reset_senses_key :
    (next (.powerOnReset .presented) live).ts.key = .presented := by decide +kernel

theorem test_reset_asserted_holds : (next .resetAsserted live).resetHeld = true := by decide +kernel

theorem test_restart_reset_returns :
    (next (.restartReset .withdrawn) { upkeep with dli := { upkeep.dli with
      restarting := true
      transmitter := some (.answer ⟨0x0E, .accepted, []⟩) } }).ts.mode = .unconfigured := by
  decide +kernel

theorem test_sync_byte_starts_assembly :
    (next .syncByte live).dli.receiver = .assembling := by decide +kernel

/-- The receiver in assembly. -/
def assembling (s : State) : State := s.setReceiver .assembling

theorem test_receive_telegram_buffers :
    (next (.receiveTelegram (telegram 0x02 [7]).tail) (assembling live)).dli.buffers =
      [⟨0x02, [7], 1000⟩] := by decide +kernel

theorem test_receive_telegram_crc_failure :
    (next (.receiveTelegram [0, 1, 0x02, 7, 0, 0]) (assembling live)).dli.crcErrors = 1 := by
  decide +kernel

theorem test_receive_truncated_hunts :
    (next (.receiveTruncated 5001) (assembling live)).dli.receiver = .hunting := by decide +kernel

theorem test_receive_overlong_hunts :
    (next (.receiveOverlong 257) (assembling live)).dli.receiver = .hunting := by decide +kernel

theorem test_unknown_kind_answer :
    sent (next .unknownKind { live with dli := { live.dli with buffers := [⟨0x7F, [], 990⟩] } }) =
      some (0x7F, .unknownKind, []) := by decide +kernel

theorem test_bad_length_answer :
    sent (next .control (holding .control [] live)) = some (0x01, .badLength, []) := by
  decide +kernel

theorem test_not_permitted_answer :
    sent (next .counterClear (holding .counterClear [] live)) = some (0x0D, .notPermitted, []) := by
  decide +kernel

theorem test_control_drives :
    (next .control (holding .control [1] live)).slot 0 =
      some { driving with acceptedAt := 1000, pulseEnd := some 1100 } := by decide +kernel

theorem test_control_busy :
    (next .control (holding .control [0] (live.setSlot 3 (some proving)))).dli.transmitter =
      some (.indication ((live.setSlot 3 (some proving)).header 1)
        [⟨false, 1005, .commandResult 0 .rejectedBusy⟩]) := by decide +kernel

theorem test_cancel_frees :
    (next .cancel (holding .cancel [1] (live.setSlot 2 (some driving)))).slot 2 = none := by
  decide +kernel

theorem test_cancel_not_active :
    sent (next .cancel (holding .cancel [1] live)) = some (0x02, .notActive, []) := by
  decide +kernel

theorem test_interrogate_starts_refresh :
    (next .interrogate (holding .interrogate [] live)).cq.cursor = some (.points 0) := by
  decide +kernel

theorem test_mode_request_operate :
    (next .modeRequestOperate (holding .modeRequest [1] committing)).dli.answers =
      [⟨0x05, .accepted, [1]⟩] := by decide +kernel

theorem test_mode_request_maintenance :
    (next .modeRequestMaintenance (holding .modeRequest [2] live)).ts.mode = .maintenance := by
  decide +kernel

theorem test_mode_request_neither :
    sent (next .modeRequestNeither (holding .modeRequest [3] live)) =
      some (0x05, .notPermitted, []) := by decide +kernel

/-- Section 10.6, step 4: a pick filter of 12,000 is clamped to 10,000. -/
theorem test_table_write_clamps :
    ((next .tableWrite (holding .tableWrite ([1] ++ u16 812 ++
      { PointEntry.empty with cls := .single, pickFilter := 12000 }.bytes)
      upkeep)).ts.shadow.pointEntry 812).pickFilter = 10000 := by decide +kernel

theorem test_table_write_enumerated_field :
    sent (next .tableWrite (holding .tableWrite [0, 0, 5, 3, 0, 9] upkeep)) =
      some (0x06, .outOfRange, []) := by decide +kernel

theorem test_table_read_answer :
    sent (next .tableRead (holding .tableRead [0, 0, 0, 1] live)) =
      some (0x07, .accepted, [0, 0, 0, 1, 2, 0, 2]) := by decide +kernel

theorem test_table_commit_pends :
    (next .tableCommit (holding .tableCommit [] upkeep)).ts.commitPending = true := by
  decide +kernel

/-- Section 10.6, step 7: a line address held by a lower module fails. -/
theorem test_table_commit_invalid :
    sent (next .tableCommit (holding .tableCommit []
      { upkeep with ts := { upkeep.ts with
          shadow := { bank with moduleMap := [(0, ⟨.input, 1⟩), (22, ⟨.input, 1⟩)] } } })) =
      some (0x08, .invalidEntry, [0, 0, 22]) := by decide +kernel

theorem test_commit_swap_answers_committed :
    sent (next .commitSwap (heldStart committing)) = some (0x08, .committed, []) := by
  decide +kernel

theorem test_substitute_imposes :
    ((next .substitute (holding .substitute [0, 0, 2] upkeep)).pointRec 0).reported = .known .on := by
  decide +kernel

theorem test_release_not_active :
    sent (next .release (holding .release [0, 0] upkeep)) = some (0x0A, .notActive, []) := by
  decide +kernel

theorem test_trace_select_point :
    (next .traceSelectPoint (holding .traceSelect [0, 1] upkeep)).pe.tracedPoint = some 1 := by
  decide +kernel

theorem test_trace_select_none :
    (next .traceSelectNone (holding .traceSelect [255, 255]
      (upkeep.selectTrace (some 1)))).pe.tracedPoint = none := by decide +kernel

theorem test_counter_clear :
    (next .counterClear (holding .counterClear []
      { upkeep with slc := { upkeep.slc with cycleOverruns := 9 } })).slc.cycleOverruns = 0 := by
  decide +kernel

theorem test_restart_answers :
    sent (next .restart (holding .restart [] upkeep)) = some (0x0E, .accepted, []) := by
  decide +kernel

theorem test_diag_read_group :
    sent (next .diagReadGroup (holding .diagRead [1, 0, 0] live)) =
      some (0x0B, .accepted, [1, 1, 255, 3, 0]) := by decide +kernel

theorem test_diag_read_slot_free :
    sent (next .diagReadSlot (holding .diagRead [3, 0, 15] live)) =
      some (0x0B, .accepted, [0, 0, 0, 0, 0, 0, 0, 0, 0, 0]) := by decide +kernel

theorem test_diag_read_module_out_of_range :
    sent (next .diagReadModule (holding .diagRead [2, 0, 32] live)) =
      some (0x0B, .outOfRange, []) := by decide +kernel

theorem test_diag_read_point_class :
    (sent (next .diagReadPoint (holding .diagRead [0, 0, 1] live))).map (fun a => a.2.2.take 4) =
      some [2, 1, 0, 3] := by decide +kernel

theorem test_diag_read_part_mode :
    (sent (next .diagReadPart (holding .diagRead [4, 0, 0] live))).map (fun a => a.2.2.take 3) =
      some [1, 1, 0] := by decide +kernel

theorem test_transmit_end_frees :
    (next .transmitEnd { live with dli := { live.dli with
      transmitter := some (.indication (live.header 0) []) } }).dli.lastSendEnd = 1000 := by
  decide +kernel

theorem test_idle_telegram :
    (next .idleIntervalExpiry { live with dli := { live.dli with lastSendEnd := 0 } }).dli.transmitter =
      some (.indication (live.header 0) []) := by decide +kernel

/-- R146: an expiry forms no header at its moment; the reception that follows at that moment clears
LINK_SILENT before the records are sent. -/
theorem test_desk_silence_forms_no_header :
    let s := next .deskSilenceExpiry ({ live with tb := { live.tb with elapsed := 5900 } }.setSlot 0
      (some driving))
    s.dli.transmitter = none ∧ s.cq.queue.length = 1 ∧
      ((next (.receiveTelegram (telegram 0x02 [7]).tail) (s.setReceiver .assembling)).dli.transmitter.map
        fun sent => match sent with
          | .indication h rs => (h.linkSilent, rs.length)
          | .answer _ => (true, 0)) = some (false, 1) := by
  decide +kernel

theorem test_desk_silence_cancels :
    (next .deskSilenceExpiry ({ live with tb := { live.tb with elapsed := 5900 } }.setSlot 0
      (some driving))).slot 0 = none := by decide +kernel

theorem test_key_withdrawal_leaves_maintenance :
    (next (.keyWithdrawal 20) upkeep).ts.mode = .operate := by decide +kernel

theorem test_key_presented :
    (next (.keyPresented 20) { live with ts := { live.ts with key := .withdrawn } }).ts.mode =
      .operate := by decide +kernel

theorem test_cycle_start_next_due : (next .cycleStart live).slc.nextDue = some 1010 := by
  decide +kernel

theorem test_input_poll_frame :
    ((next .inputPoll (live.setCycle (some ⟨1000, false, 0, none⟩))).pollFrame).map (List.take 3) =
      some [1, 0x11, 0] := by decide +kernel

theorem test_drive_poll_frame :
    ((next .drivePoll ((live.setCode 1 1 .on).setCycle (some ⟨1000, false, 1, none⟩))).pollFrame).map
      (List.take 4) = some [2, 0x12, 8, 4] := by decide +kernel

theorem test_reply_first_byte :
    ((next (.replyFirstByte ⟨400, 130⟩) (scanning 0 1 .awaiting live)).scanIn .receiving).isSome = true := by
  decide +kernel

theorem test_reply_timeout_counts :
    ((next (.replyTimeout 400) (scanning 0 1 .awaiting live)).moduleRec 0).replyTimeouts = 1 := by
  decide +kernel

/-- R76: the window of an attempt ended in an earlier millisecond, so the part times the attempt out by
itself, and a first byte that begins now is late. -/
theorem test_reply_window_ends_by_itself :
    let s : State := { scanning 0 1 .awaiting live with
      tb := { live.tb with elapsed := 1001 }, slc := { (scanning 0 1 .awaiting live).slc with
        nextDue := some 1010 } }
    s.selfStarted = some (.replyTimeout 0) ∧
      ((next (.replyFirstByte ⟨50, 130⟩) s).scanIn .receiving).isSome = false := by
  decide +kernel

/-- R76: 260 bytes without a gap after one another, of a reply that announces more than 9 data bytes, run
2600 microseconds, and with a window of 100 their reception ends by itself at 2701 and not before. -/
theorem test_overlong_reply_runs_until_silence :
    let s (elapsed : Time) : State := { live with
      tb := { live.tb with elapsed := elapsed }
      ts := { live.ts with active := { bank with system := { bank.system with replyWindow := 100 } } }
      slc := { live.slc with
        nextDue := some 1010
        cycle := some { cycleOf 0 1 .receiving with
          scan := some { scanOf 0 1 .receiving with more := 2590 } } } }
    (s 1001).selfStarted = none ∧ (s 1002).selfStarted = some (.replySilence 701) ∧
      next (.replySilence 700) (s 1002) = s 1002 ∧
      ((next (.replySilence 701) (s 1002)).moduleRec 0).formatErrors = 1 := by
  decide +kernel

theorem test_reply_silence_misses_on_last_attempt :
    ((next (.replySilence 541) (scanning 0 2 .receiving live)).moduleRec 0).state = .suspect := by
  decide +kernel

theorem test_input_reply_image :
    (next (.inputReply ⟨frame 1 0x21 [0x81, 0, 0, 0, 0, 0, 0, 0x80, 0], 140⟩)
      (scanning 0 1 .receiving live)).slc.banks = [⟨0, 0x8000000000000081, 1000⟩] := by
  decide +kernel

theorem test_drive_reply_readback :
    ((next (.driveReply ⟨frame 2 0x22 [0, 1, 0, 0, 0], 100⟩)
      (scanning 1 1 .receiving live)).moduleRec 1).readback = some ⟨0x100, 1000⟩ := by
  decide +kernel

theorem test_image_arrival_frees_bank :
    (next .imageArrival { live with slc := { live.slc with
      banks := [⟨0, 1, 995⟩, ⟨0, 0, 1000⟩] } }).slc.banks = [⟨0, 0, 1000⟩] := by decide +kernel

theorem test_pulse_end_executes :
    (next (.pulseEnd 5) (live.setSlot 5 (some driving))).slot 5 = none := by decide +kernel

theorem test_proving_deadline_unprovable :
    (next (.provingDeadline 0) (live.setSlot 0 (some proving))).dli.transmitter =
      some (.indication (live.header 1) [⟨false, 1005, .commandResult 0 .unprovable⟩]) := by
  decide +kernel

/-! ### States that meet the hypotheses of the obligations -/

theorem witness_step : { live with pending := [.cycleStart] }.pending = .cycleStart :: [] := rfl

theorem witness_empty_queue :
    live.pending = [] ∧ live.age.handOvers = [] ∧ live.dli.expiryOpen = false ∧
      live.selfStarted = some .cycleStart ∧
      ({ live with slc := { live.slc with nextDue := some 1001 } } : State).selfStarted = none ∧
      live.Running := by
  refine ⟨rfl, rfl, rfl, ?_, ?_, rfl⟩ <;> decide +kernel

/-- The part with the AGE at a hand-over of group 0. -/
def handing : State :=
  live.setHandOvers [{ arrival := true, time := 990, groups := [0], clears := [] }]

theorem witness_unfinished_work :
    handing.pending = [] ∧ handing.Running ∧ handing.age.handOvers ≠ [] ∧
      ({ live with dli := { live.dli with expiryOpen := true } } : State).age.handOvers = [] ∧
      ({ live with resetHeld := true } : State).resetHeld = true := by
  exact ⟨rfl, rfl, by decide, rfl, rfl⟩

theorem witness_reset_held :
    ({ live with resetHeld := true } : State).resetHeld = true ∧
      Instr.cycleStart ≠ .resetAsserted ∧ ∀ key, Instr.cycleStart ≠ .powerOnReset key := by
  exact ⟨rfl, by decide, fun _ => by simp⟩

/-- The part sending the ACCEPTED answer of a RESTART. -/
def restarting : State :=
  { upkeep with dli := { upkeep.dli with
      restarting := true, transmitter := some (.answer ⟨0x0E, .accepted, []⟩) } }

theorem witness_resets : restarting.Running ∧ restarting.dli.restarting = true ∧
    restarting.dli.transmitter = some (.answer ⟨0x0E, .accepted, []⟩) := ⟨rfl, rfl, rfl⟩

/-- Both receive buffers full. -/
def fullBuffers : State :=
  assembling { live with dli := { live.dli with buffers := [⟨2, [1], 990⟩, ⟨2, [2], 991⟩] } }

theorem witness_reception_valid :
    fullBuffers.Running ∧ fullBuffers.dli.receiver = .assembling ∧
      (List.replicate 256 (0 : Byte)).length ≤ 256 ∧
      exec (.receiveTelegram (telegram 0x7F []).tail) fullBuffers =
        .next (next (.receiveTelegram (telegram 0x7F []).tail) fullBuffers) ∧
      (next (.receiveTelegram (telegram 0x7F []).tail) fullBuffers).dli.rxOverruns = 1 := by
  exact ⟨rfl, rfl, Nat.le_of_eq List.length_replicate, rfl, by decide +kernel⟩

theorem witness_reception_discards :
    (assembling live).Running ∧ (assembling live).dli.receiver = .assembling ∧
      telegramShape [0, 1, 0x02, 7, 0, 0] = true ∧ crcCorrect [0, 1, 0x02, 7, 0, 0] = false ∧
      5000 < 5001 ∧ 256 < (257 : BitVec 16).toNat ∧ live.dli.receiver = .hunting := by
  refine ⟨rfl, rfl, ?_, ?_, ?_, ?_, rfl⟩ <;> decide +kernel

/-- The part with the older buffered telegram given whole. -/
def buffering (t : RxTelegram) : State := { live with dli := { live.dli with buffers := [t] } }

theorem witness_dispatch_unknown_kind :
    (buffering ⟨0x0F, [], 990⟩).Dispatches ⟨0x0F, [], 990⟩ [] ∧
      ∀ k : DeskKind, (0x0F : Byte) ≠ k.byte :=
  ⟨⟨rfl, rfl, rfl, rfl⟩, by intro k; cases k <;> decide⟩

theorem witness_dispatch_bad_length :
    (buffering ⟨0x05, [], 990⟩).Dispatches ⟨0x05, [], 990⟩ [] ∧
      kindOf .modeRequestNeither = some .modeRequest ∧
      DeskKind.modeRequest.lengthAllowed [] = false :=
  ⟨⟨rfl, rfl, rfl, rfl⟩, rfl, rfl⟩

theorem witness_dispatch_not_permitted :
    (buffering ⟨0x0C, [255, 255], 990⟩).Dispatches ⟨0x0C, [255, 255], 990⟩ [] ∧
      kindOf .traceSelectNone = some .traceSelect ∧
      DeskKind.traceSelect.lengthAllowed [255, 255] = true ∧
      rowTakes .traceSelectNone [255, 255] = true ∧
      DeskKind.traceSelect.permitted .operate = false :=
  ⟨⟨rfl, rfl, rfl, rfl⟩, rfl, rfl, by decide, rfl⟩

theorem witness_accepted_control :
    (holding .control (u8 0) live).Obeys .control (u8 0) 990 [] ∧
      live.ts.mode ≠ .unconfigured ∧ live.ts.commitPending = false ∧
      (bank.commandEntry 0).defined = true ∧ (live.moduleRec 1).state = .active ∧
      live.channel 1 0 = some .init ∧ Channel.init.isFaulted = false ∧
      (∀ (j : SlotNo) (sl : Slot), live.slot j = some sl → ¬ (sl.mod = 1 ∧ sl.channel = 0)) ∧
      live.slot 0 = none ∧ (∀ j : SlotNo, j < 0 → live.slot j ≠ none) ∧
      (∀ p, (bank.commandEntry 0).proving = some p →
        (live.pointRec p).evaluated ≠ .known (bank.commandEntry 0).expected) := by
  refine ⟨obeys rfl rfl rfl rfl rfl, by decide, rfl, rfl, rfl, rfl, rfl, ?_, rfl, ?_, ?_⟩
  · intro j sl (h : (none : Option Slot) = some sl)
    simp at h
  · intro j h
    exact absurd h (by simp)
  · intro p _ (h : PointState.unknown .init = _)
    simp at h

/-- The eight checks of R105 for a control at `live`. -/
def checksAtLive (c : ControlNo) : List (Bool × CommandResult) :=
  let e := bank.commandEntry c
  [(decide (live.ts.mode ≠ .unconfigured), .rejectedNotConfigured),
   (!live.ts.commitPending, .rejectedCommitPending),
   (e.defined, .rejectedUndefined),
   (decide ((live.moduleRec e.mod).state = .active), .rejectedModule),
   (!((live.channel e.mod e.channel).any Channel.isFaulted), .rejectedChannelFault),
   ((List.finRange 16).all fun k =>
      (live.slot k).all fun sl => !(sl.mod = e.mod && sl.channel = e.channel), .rejectedBusy),
   ((List.finRange 16).any fun k => (live.slot k).isNone, .rejectedNoSlot),
   (e.proving.all fun p => (live.pointRec p).evaluated ≠ .known e.expected, .already)]

theorem witness_failing_check_decides :
    (holding .control (u8 9) live).Obeys .control (u8 9) 990 [] ∧
      List.find? (fun check : Bool × CommandResult => !check.1) (checksAtLive 9) =
        some (false, .rejectedUndefined) ∧
      List.find? (fun check : Bool × CommandResult => !check.1) (checksAtLive 0) = none := by
  refine ⟨obeys rfl rfl rfl rfl rfl, ?_, ?_⟩ <;> decide +kernel

theorem witness_cancel_not_active :
    (holding .cancel (u8 1) live).Obeys .cancel (u8 1) 990 [] ∧
      ∀ (k : SlotNo) (sl : Slot), live.slot k = some sl → sl.control ≠ 1 := by
  refine ⟨obeys rfl rfl rfl rfl rfl, ?_⟩
  intro k sl (h : (none : Option Slot) = some sl)
  simp at h

theorem witness_cancel_active :
    (holding .cancel (u8 1) (live.setSlot 0 (some driving))).Obeys .cancel (u8 1) 990 [] ∧
      (live.setSlot 0 (some driving)).slot 0 = some driving ∧ driving.control = 1 ∧
      ∀ (j : SlotNo) (a : Slot), j < 0 → (live.setSlot 0 (some driving)).slot j = some a →
        a.control ≠ 1 :=
  ⟨obeys rfl rfl rfl rfl rfl, rfl, rfl, fun j a h => absurd h (by simp)⟩

/-- A slot in FINISHING. -/
def finishing : Slot :=
  { proving with phase := .finishing, endOnProof := false, deadline := none, result := some .proved }

theorem witness_pulse_end :
    (live.setSlot 0 (some driving)).slot 0 = some driving ∧ driving.pulseEnd = some 600 ∧
      reached 600 1000 = true ∧ driving.phase = .driving ∧
      (live.setSlot 0 (some finishing)).slot 0 = some finishing ∧
      finishing.pulseEnd = some 900 ∧ reached 900 1000 = true ∧ finishing.phase = .finishing ∧
      (live.setSlot 0 (some proving)).slot 0 = some proving ∧ proving.pulseEnd = some 900 ∧
      proving.phase = .proving := by
  refine ⟨rfl, rfl, ?_, rfl, rfl, rfl, ?_, rfl, rfl, rfl, rfl⟩ <;> decide +kernel

theorem witness_proving_deadline :
    (live.setSlot 0 (some proving)).Running ∧
      (live.setSlot 0 (some proving)).slot 0 = some proving ∧ proving.phase = .proving ∧
      proving.proving = some (1, .up) ∧ proving.deadline = some 1000 ∧ reached 1000 1000 = true := by
  refine ⟨rfl, rfl, rfl, rfl, rfl, ?_⟩
  decide +kernel

theorem witness_proof :
    (live.setSlot 0 (some proving)).slot 0 = some proving ∧ live.slot 1 = none ∧
      live.cq.queue.length ≤ 240 ∧ live.channel 1 0 = some .init ∧
      ((live.setSlot 0 (some proving)).setCode 1 0 .on).channel 1 0 =
        some { Channel.init with drive := .on } ∧
      (((live.setSlot 0 (some proving)).setCode 1 0 .on).csuNotice 1 (.known .up)).channel 1 0 =
        some .init ∧
      (live.setSlot 1 (some driving)).slot 1 = some driving ∧ driving.phase ≠ .proving ∧
      ((live.setSlot 0 (some proving)).csuNotice 1 (.known .up)).slot 0 = none ∧
      ((live.setSlot 0 (some { proving with endOnProof := false })).csuNotice 1
        (.known .up)).slot 0 = some finishing := by
  refine ⟨rfl, rfl, ?_, rfl, ?_, ?_, rfl, ?_, ?_, ?_⟩ <;> decide +kernel

/-- The part 5000 ms after the silence start. -/
def silent : State :=
  ({ live with tb := { live.tb with elapsed := 5900 } }.setSlot 0 (some driving)).setCode 1 3 .flash

theorem witness_desk_silence :
    silent.Running ∧ silent.ts.mode ≠ .unconfigured ∧ silent.system.silenceTime ≠ 0 ∧
      silent.dli.linkSilent = false ∧
      silent.system.silenceTime ≤ interval silent.dli.silenceStart silent.now ∧
      silent.slot 0 = some driving ∧ driving.mode = .pulse ∧ driving.pulseEnd ≠ none ∧
      silent.channel 1 3 = some { Channel.init with drive := .flash } ∧
      silent.cq.queue.length ≤ 240 ∧ silent.channel 0 0 = none ∧
      ((next .deskSilenceExpiry silent).channel 1 3).map Channel.drive = some .off := by
  refine ⟨rfl, ?_, ?_, rfl, ?_, ?_, rfl, ?_, ?_, ?_, rfl, ?_⟩ <;> decide +kernel

theorem witness_interrogate_time_set_restart :
    (holding .interrogate [] live).Obeys .interrogate [] 990 [] ∧
      (holding .timeSet (u32 0xFFFFFFFF) live).Obeys .timeSet (u32 0xFFFFFFFF) 990 [] ∧
      (holding .restart [] upkeep).Obeys .restart [] 990 [] :=
  ⟨obeys rfl rfl rfl rfl rfl, obeys rfl rfl rfl rfl rfl, obeys rfl rfl rfl rfl rfl⟩

theorem witness_counter_clear :
    (holding .counterClear [] upkeep).Obeys .counterClear [] 990 [] := obeys rfl rfl rfl rfl rfl

/-- The part before its first commit. -/
def blank : State := State.reset

theorem witness_mode_request :
    (holding .modeRequest [1] blank).Obeys .modeRequest [1] 990 [] ∧
      blank.ts.mode = .unconfigured ∧
      (holding .modeRequest [1] live).Obeys .modeRequest [1] 990 [] ∧ live.ts.mode = .operate ∧
      (holding .modeRequest [1] upkeep).Obeys .modeRequest [1] 990 [] ∧
      upkeep.ts.mode = .maintenance ∧ upkeep.ts.commitPending = false ∧
      (holding .modeRequest [1] (heldStart committing)).Obeys .modeRequest [1] 990 [] ∧
      committing.ts.commitPending = true ∧
      (holding .modeRequest [2] live).Obeys .modeRequest [2] 990 [] ∧ live.ts.key = .presented ∧
      (holding .modeRequest [0] live).Obeys .modeRequest [0] 990 [] ∧
      (holding .modeRequest [3] live).Obeys .modeRequest [3] 990 [] :=
  ⟨obeys rfl rfl rfl rfl rfl, rfl, obeys rfl rfl rfl rfl rfl, rfl, obeys rfl rfl rfl rfl rfl, rfl, rfl,
    obeys rfl rfl rfl rfl rfl, rfl, obeys rfl rfl rfl rfl rfl, rfl, obeys rfl rfl rfl rfl rfl,
    obeys rfl rfl rfl rfl rfl⟩

/-- The part in OPERATE with the key withdrawn. -/
def keyless : State := { live with ts := { live.ts with key := .withdrawn } }

theorem witness_mode_request_without_key :
    (holding .modeRequest [2] keyless).Obeys .modeRequest [2] 990 [] ∧
      keyless.ts.mode = .operate ∧ keyless.ts.key = .withdrawn :=
  ⟨obeys rfl rfl rfl rfl rfl, rfl, rfl⟩

theorem witness_key_changes :
    live.Running ∧ live.ts.key = .presented ∧ live.ts.mode ≠ .maintenance ∧
      upkeep.ts.mode = .maintenance ∧ upkeep.ts.commitPending = false ∧
      (heldStart committing).ts.mode = .maintenance ∧
      (heldStart committing).ts.commitPending = true ∧ keyless.ts.key = .withdrawn ∧ 20 ≤ 20 ∧
      19 < 20 ∧ (next (.keyWithdrawal 20) (heldStart committing)).slc.cycle =
        some { start := 1000, held := false, next := 0, scan := none } := by
  refine ⟨rfl, rfl, ?_, rfl, rfl, rfl, rfl, rfl, ?_, ?_, ?_⟩ <;> decide +kernel

theorem witness_table_write :
    (holding .tableWrite [6, 0, 0] upkeep).Obeys .tableWrite [6, 0, 0] 990 [] ∧
      (∀ table : TableId, (6 : Byte).toNat ≠ table.code) ∧
      (holding .tableWrite [0, 0, 32, 1, 0, 7] upkeep).Obeys .tableWrite
        (u8 TableId.moduleMap.code ++ u16 32 ++ [1, 0, 7]) 990 [] ∧
      TableId.moduleMap.entries < 32 + [1, 0, (7 : Byte)].length / TableId.moduleMap.entrySize ∧
      (holding .tableWrite [0, 0, 31, 1, 0, 63] upkeep).Obeys .tableWrite
        (u8 TableId.moduleMap.code ++ u16 31 ++ [1, 0, 63]) 990 [] ∧
      bank.write .moduleMap 31 1 [1, 0, 63] =
        some ({ bank with moduleMap := bank.moduleMap ++ [(31, ⟨.input, 62⟩)] }, true) ∧
      bank.write .moduleMap 31 1 [3, 0, 62] = none ∧
      (holding .tableWrite [0, 0, 31, 3, 0, 62] upkeep).Obeys .tableWrite
        (u8 TableId.moduleMap.code ++ u16 31 ++ [3, 0, 62]) 990 [] ∧
      (holding .tableWrite [0, 0, 0, 1, 0, 7] committing).Obeys .tableWrite
        (u8 TableId.moduleMap.code ++ u16 0 ++ [1, 0, 7]) 990 [] ∧
      committing.ts.commitPending = true := by
  refine ⟨obeys rfl rfl rfl rfl rfl, by intro t; cases t <;> decide, obeys rfl rfl rfl rfl rfl,
    by decide, obeys rfl rfl rfl rfl rfl, ?_, ?_, obeys rfl rfl rfl rfl rfl,
    obeys rfl rfl rfl rfl rfl, rfl⟩ <;> decide +kernel

/-- Both outcomes of a write of two entries, at the last two indexes of a table. -/
theorem witness_writes :
    30 + 2 ≤ 32 ∧ (bank.write .moduleMap 30 2 [1, 0, 7, 2, 0, 63]).isSome = true ∧
      bank.write .moduleMap 30 2 [1, 0, 7, 3, 0, 63] = none ∧ 0 + 1 ≤ 1 ∧
      (bank.write .system 0 1 (u16 3 ++ SystemRecord.defaults.bytes.drop 2)).map Prod.snd = some true := by
  refine ⟨?_, ?_, ?_, ?_, ?_⟩ <;> decide +kernel

theorem witness_written_points :
    1 ≤ [bank.pointEntry 1].length ∧ [bank.pointEntry 1].length ≤ 8 ∧
      1023 + [bank.pointEntry 1].length ≤ 1024 ∧ (bank.pointEntry 1).inRange ∧
      (bank.pointEntry 1).sendable ∧ { bank.pointEntry 1 with pickFilter := 65535 }.sendable ∧
      ¬ { bank.pointEntry 1 with pickFilter := 65535 }.inRange ∧
      upkeep.ts.commitPending = false ∧
      (holding .tableWrite ([1] ++ u16 1023 ++ ([bank.pointEntry 1].map PointEntry.bytes).flatten)
        upkeep).Obeys .tableWrite
          ([1] ++ u16 1023 ++ ([bank.pointEntry 1].map PointEntry.bytes).flatten) 990 [] := by
  refine ⟨by decide, by decide, by decide, ?_, ?_, ?_, ?_, rfl, obeys rfl rfl rfl ?_ rfl⟩
  · unfold PointEntry.inRange
    decide +kernel
  · unfold PointEntry.sendable
    decide +kernel
  · unfold PointEntry.sendable
    decide +kernel
  · unfold PointEntry.inRange
    decide +kernel
  · decide +kernel

theorem witness_table_read :
    (holding .tableRead [1, 3, 1, 255] live).Obeys .tableRead ([1, 3] ++ u16 511) 990 [] ∧
      bank = live.ts.shadow ∧ (511 : PatternNo).val = 511 ∧
      (holding .tableRead [0, 5, 0, 0] live).Obeys .tableRead ([0, 5] ++ u16 0) 990 [] ∧
      bank = live.ts.active ∧
      (holding .tableRead [2, 3, 2, 0] live).Obeys .tableRead ([2, 3] ++ u16 512) 990 [] ∧
      2 ≤ (2 : Byte).toNat ∧
      (holding .tableRead [0, 5, 0, 1] live).Obeys .tableRead ([0, 5] ++ u16 1) 990 [] :=
  ⟨obeys rfl rfl rfl rfl rfl, rfl, rfl, obeys rfl rfl rfl rfl rfl, rfl, obeys rfl rfl rfl rfl rfl,
    by decide, obeys rfl rfl rfl rfl rfl⟩

theorem witness_table_commit :
    (holding .tableCommit [] upkeep).Obeys .tableCommit [] 990 [] ∧
      upkeep.ts.commitPending = false ∧ (∀ k : SlotNo, upkeep.slot k = none) ∧
      upkeep.ts.shadow.firstInvalid = none ∧ upkeep.ts.mode = .maintenance ∧
      (holding .tableCommit [] committing).Obeys .tableCommit [] 990 [] ∧
      committing.ts.commitPending = true ∧
      (holding .tableCommit [] blank).Obeys .tableCommit [] 990 [] ∧
      blank.ts.shadow.firstInvalid = none ∧ blank.ts.mode = .unconfigured ∧
      { bank with commands := [(0, { CommandEntry.empty with defined := true })] }.firstInvalid =
        some (.commands, 0) := by
  refine ⟨obeys rfl rfl rfl rfl rfl, rfl, fun _ => rfl, ?_, rfl, obeys rfl rfl rfl rfl rfl, rfl,
    obeys rfl rfl rfl rfl rfl, ?_, rfl, ?_⟩ <;> decide +kernel

theorem witness_swap :
    (∀ c, c ∈ (bank.pointEntry 1).contacts → (bank.moduleEntry c.mod).use ≠ .unused) ∧
      (live.selectTrace (some 1)).pe.tracedPoint = some 1 ∧ live.pe.tracedPoint = none ∧
      (bank.pointEntry 1).cls ≠ .none ∧ (bank.pointEntry 1023).cls = .none ∧ blank.ts.mode = .unconfigured ∧
      (heldStart committing).ts.mode ≠ .unconfigured ∧
      (heldStart committing).slc.cycle =
        some { start := 1000, held := true, next := 0, scan := none } ∧
      bank.system.scanPeriod ≠ { bank.system with scanPeriod := 20 }.scanPeriod := by
  refine ⟨?_, rfl, rfl, ?_, rfl, rfl, ?_, rfl, ?_⟩ <;> decide +kernel

theorem witness_commit_swap :
    (heldStart committing).Running ∧
      (heldStart committing).slc.cycle =
        some { start := 1000, held := true, next := 0, scan := none } ∧
      (heldStart committing).ts.commitPending = true ∧ (heldStart committing).slc.banks = [] ∧
      (heldStart committing).age.handOvers = [] ∧ (heldStart committing).swap.NextUsed 0 0 ∧
      { (heldStart committing).slc with banks := [⟨0, 0, 995⟩] }.banks ≠ [] := by
  refine ⟨rfl, rfl, rfl, rfl, rfl, ⟨by decide, by decide +kernel, fun k _ h => absurd h (by simp)⟩, ?_⟩
  decide

/-- R153: module 1 on the line address of module 0 is reported before control 0, whose output module is not
OUTPUT. -/
theorem test_validation_reports_the_first_entry :
    { bank with
      moduleMap := [(0, ⟨.input, 1⟩), (1, ⟨.output, 2⟩), (2, ⟨.input, 2⟩), (5, ⟨.input, 1⟩)]
      commands := [(0, { CommandEntry.empty with defined := true })] }.firstInvalid =
      some (.moduleMap, 2) := by
  decide +kernel

theorem witness_validated_bank :
    bank.canonical ∧ bank.firstInvalid = none ∧ (bank.moduleEntry 0).use ≠ .unused ∧
      (bank.moduleEntry 1).use ≠ .unused ∧ (bank.pointEntry 1).cls = .pair ∧
      (bank.pointEntry 2).cls = .flasher ∧ (bank.groupEntry 0).isDefined = true ∧
      (0 : PatternNo) ∈ (bank.groupEntry 0).patternRange ∧ (bank.commandEntry 0).defined = true := by
  refine ⟨by unfold Tables.canonical; decide +kernel, ?_, ?_, ?_, rfl, rfl, ?_, ?_, rfl⟩ <;> decide +kernel

theorem witness_substitute :
    (holding .substitute (u16 0 ++ [2]) upkeep).Obeys .substitute (u16 0 ++ [2]) 990 [] ∧
      (2 : Byte).toNat = StateValue.on.code ∧
      StateValue.on.validFor (bank.pointEntry 0).cls = true ∧
      (holding .substitute (u16 1023 ++ [2]) upkeep).Obeys .substitute (u16 1023 ++ [2]) 990 [] ∧
      StateValue.on.validFor (bank.pointEntry 1023).cls = false ∧
      (holding .substitute (u16 1024 ++ [11]) upkeep).Obeys .substitute (u16 1024 ++ [11]) 990 [] := by
  refine ⟨obeys rfl rfl rfl rfl rfl, rfl, ?_, obeys rfl rfl rfl rfl rfl, ?_,
    obeys rfl rfl rfl rfl rfl⟩ <;> decide +kernel

theorem witness_release :
    (holding .release (u16 1024) upkeep).Obeys .release (u16 1024) 990 [] ∧
      (holding .release (u16 1023) upkeep).Obeys .release (u16 1023) 990 [] ∧
      (upkeep.pointRec 1023).substitute = none ∧
      ((upkeep.setPointRec 0 { PointRecord.init with substitute := some .on }).pointRec 0).substitute
        = some .on ∧
      (holding .release (u16 0)
        (upkeep.setPointRec 0 { PointRecord.init with substitute := some .on })).Obeys
          .release (u16 0) 990 [] :=
  ⟨obeys rfl rfl rfl rfl rfl, obeys rfl rfl rfl rfl rfl, rfl, rfl, obeys rfl rfl rfl rfl rfl⟩

theorem witness_trace_select :
    (holding .traceSelect (u16 65535) upkeep).Obeys .traceSelect (u16 65535) 990 [] ∧
      (holding .traceSelect (u16 65534) upkeep).Obeys .traceSelect (u16 65534) 990 [] ∧
      (holding .traceSelect (u16 1023) upkeep).Obeys .traceSelect (u16 1023) 990 [] ∧
      (bank.pointEntry 1023).cls = .none ∧
      (holding .traceSelect (u16 2) upkeep).Obeys .traceSelect (u16 2) 990 [] ∧
      (bank.pointEntry 2).cls ≠ .none :=
  ⟨obeys rfl rfl rfl rfl rfl, obeys rfl rfl rfl rfl rfl, obeys rfl rfl rfl rfl rfl, rfl,
    obeys rfl rfl rfl rfl rfl, by decide⟩

theorem witness_diag_read :
    (holding .diagRead ([0] ++ u16 1023) live).Obeys .diagRead ([0] ++ u16 1023) 990 [] ∧
      (holding .diagRead ([0] ++ u16 1024) live).Obeys .diagRead ([0] ++ u16 1024) 990 [] ∧
      (holding .diagRead ([1] ++ u16 127) live).Obeys .diagRead ([1] ++ u16 127) 990 [] ∧
      (holding .diagRead ([1] ++ u16 128) live).Obeys .diagRead ([1] ++ u16 128) 990 [] ∧
      (holding .diagRead ([2] ++ u16 31) live).Obeys .diagRead ([2] ++ u16 31) 990 [] ∧
      (holding .diagRead ([2] ++ u16 32) live).Obeys .diagRead ([2] ++ u16 32) 990 [] ∧
      (holding .diagRead ([3] ++ u16 15) live).Obeys .diagRead ([3] ++ u16 15) 990 [] ∧
      live.slot 15 = none ∧
      (holding .diagRead ([3] ++ u16 16) live).Obeys .diagRead ([3] ++ u16 16) 990 [] ∧
      (holding .diagRead ([4] ++ u16 65535) live).Obeys .diagRead ([4] ++ u16 65535) 990 [] ∧
      (holding .diagRead ([5] ++ u16 0) live).Obeys .diagRead ([5] ++ u16 0) 990 [] ∧
      kindOf .diagReadPart = some .diagRead :=
  ⟨obeys rfl rfl rfl rfl rfl, obeys rfl rfl rfl rfl rfl, obeys rfl rfl rfl rfl rfl,
    obeys rfl rfl rfl rfl rfl, obeys rfl rfl rfl rfl rfl, obeys rfl rfl rfl rfl rfl,
    obeys rfl rfl rfl rfl rfl, rfl, obeys rfl rfl rfl rfl rfl, obeys rfl rfl rfl rfl rfl,
    obeys rfl rfl rfl rfl rfl, rfl⟩

/-- The part with an ANSWER waiting and the transmitter free. -/
def answering : State := { live with dli := { live.dli with answers := [⟨0x02, .notActive, []⟩] } }

theorem witness_transmitter :
    answering.dli.transmitter = none ∧ answering.dli.answers = [⟨0x02, .notActive, []⟩] ∧
      live.dli.answers = [] ∧ live.dli.restarting = false ∧ live.dli.expiryOpen = false ∧
      live.startRefresh.cq.cursor ≠ none ∧
      live.cq.queue = [] ∧ live.cq.cursor = none ∧
      (live.sending (.answer ⟨0x0E, .notPermitted, []⟩)).dli.transmitter =
        some (.answer ⟨0x0E, .notPermitted, []⟩) ∧
      live.system.idleInterval ≤ interval 0 live.now := by
  refine ⟨rfl, rfl, rfl, rfl, rfl, ?_, rfl, rfl, rfl, ?_⟩ <;> decide +kernel

theorem live_canonical : live.Canonical where
  active := by unfold Tables.canonical; decide +kernel
  shadow := by unfold Tables.canonical; decide +kernel
  modules := by decide +kernel
  points := by decide +kernel
  groups := by decide +kernel
  channels := by decide +kernel
  banks := by
    intro m bank h
    have : ∀ m, live.channelBank m = none ∨ live.channelBank m = some [] := by decide +kernel
    rcases this m with h' | h' <;> rw [h'] at h <;> simp at h
    subst h
    rfl
  slots := by decide +kernel

theorem witness_indication :
    live.startRefresh.cq.cursor ≠ none ∧ live.cq.cursor = none ∧
      (live.hand 1000 .refreshEnd).cq.queue.length = 1 := by
  refine ⟨?_, rfl, ?_⟩ <;> decide +kernel

theorem witness_refresh_walk :
    ((List.finRange 1024).filter fun p =>
        (bank.pointEntry p).isDefined && (bank.pointEntry p).report).length +
      ((List.finRange 128).filter fun g =>
        (bank.groupEntry g).isDefined && (bank.groupEntry g).report).length +
      ((List.finRange 32).filter fun m => (bank.moduleEntry m).use ≠ .unused).length < 7 ∧
    (live.refreshRecords 7 (some (.points 0))).1.length = 7 ∧
      (live.refreshRecords 7 (some (.points 0))).2 = none := by
  refine ⟨?_, ?_, ?_⟩ <;> decide +kernel

theorem witness_cycle_start :
    live.slc.nextDue = some 1000 ∧ live.Running ∧ reached 1000 live.now = true ∧
      live.slc.cycle = none ∧ (heldStart live).slc.cycle ≠ none ∧
      (heldStart live).slc.lateWaiting = false ∧
      (∀ m : ModuleNo, 2 ≤ m.val → live.useOf m = .unused) ∧
      (live.setCycle (some ⟨990, false, 2, none⟩)).slc.cycle = some ⟨990, false, 2, none⟩ ∧
      reached 1001 live.now = false ∧ reached 999 live.now = true := by
  refine ⟨rfl, rfl, ?_, rfl, ?_, rfl, ?_, rfl, ?_, ?_⟩ <;> decide +kernel

theorem witness_next_due :
    1 ≤ 10 ∧ interval 4294967290 (2 : Time) + 10 < 4294967296 ∧
      nextGridPoint 4294967290 2 10 = 4 := by
  refine ⟨?_, ?_, ?_⟩ <;> decide +kernel

theorem witness_polls :
    (live.setCycle (some ⟨1000, false, 0, none⟩)).Running ∧
      (live.setCycle (some ⟨1000, false, 0, none⟩)).NextUsed 0 0 ∧ live.useOf 0 = .input ∧
      live.slc.banks.length < 2 ∧ live.useOf 1 = .output ∧
      (live.setCycle (some ⟨1000, false, 1, none⟩)).NextUsed 1 1 ∧
      (scanning 0 1 .toSend live).slc.cycle =
        some ⟨1000, false, 0, some ⟨0, 2 - 1, .toSend, ⟨1000, 0⟩, 130⟩⟩ ∧ 2 ≤ 2 := by
  refine ⟨rfl, ⟨by decide, by decide +kernel, fun k _ h => absurd h (by simp)⟩, rfl, by decide, rfl,
    ⟨by decide, by decide +kernel, fun k h h' => ?_⟩, rfl, by decide⟩
  have : k.val < 1 := h'
  omega

theorem scanning_scans (m : ModuleNo) (n : Nat) (line : LinePhase) :
    (scanning m n line live).Scanning (cycleOf m n line) (scanOf m n line) line :=
  ⟨rfl, rfl, rfl, rfl⟩

/-- R76: the window of 400 takes a first byte at 0 and at 400 and none at 401; it has ended at 400; a line
that falls silent after 140 microseconds has been silent for longer than the window at 541. -/
theorem witness_attempts :
    (scanning 0 1 .awaiting live).Scanning (cycleOf 0 1 .awaiting) (scanOf 0 1 .awaiting) .awaiting ∧
      (scanning 0 2 .receiving live).Scanning (cycleOf 0 2 .receiving) (scanOf 0 2 .receiving)
        .receiving ∧
      live.system.replyWindow = 400 ∧ 1 < 1 + live.system.retries ∧
      (live.slc.lineClock ≤ 0 ∧ (scanOf 0 1 .awaiting).since.microsTo ⟨1000, 0⟩ = 0) ∧
      (scanOf 0 1 .awaiting).since.microsTo ⟨1000, 400⟩ = 400 ∧
      (scanOf 0 1 .awaiting).since.microsTo ⟨1000, 401⟩ = 401 ∧
      (scanOf 0 1 .awaiting).since.microsTo ⟨1001, 0⟩ = 1000 ∧
      (scanOf 0 1 .awaiting).since.microsTo ⟨999, 999⟩ = -1 ∧
      (scanOf 0 2 .receiving).since.microsTo ⟨1000, 540⟩ = 10 + 130 + 400 ∧
      (scanOf 0 2 .receiving).since.microsTo ⟨1000, 541⟩ = 541 ∧
      { scanning 0 1 .awaiting live with slc := { (scanning 0 1 .awaiting live).slc with
        nextDue := some 1010 } }.selfStarted = some (.replyTimeout 400) ∧
      { scanning 0 1 .receiving live with slc := { (scanning 0 1 .receiving live).slc with
        nextDue := some 1010 } }.selfStarted = some (.replySilence 541) := by
  refine ⟨scanning_scans 0 1 .awaiting, scanning_scans 0 2 .receiving, rfl, ?_, ?_, ?_, ?_, ?_, ?_, ?_, ?_, ?_,
    ?_⟩ <;> decide +kernel

theorem witness_reply_ends :
    (scanning 0 1 .receiving live).ReplyEnds (scanOf 0 1 .receiving) 14 140 ∧
      ¬ (scanning 0 1 .receiving live).ReplyEnds (scanOf 0 1 .receiving) 14 139 ∧
      (scanning 1 1 .receiving live).ReplyEnds (scanOf 1 1 .receiving) 10 100 := by
  refine ⟨⟨?_, ?_, ?_, ?_⟩, fun h => absurd h.least ?_, ⟨?_, ?_, ?_, ?_⟩⟩ <;> decide +kernel

theorem witness_reply_checks :
    (scanning 0 1 .receiving live).Scanning (cycleOf 0 1 .receiving) (scanOf 0 1 .receiving)
        .receiving ∧
      (scanning 1 1 .receiving live).Scanning (cycleOf 1 1 .receiving) (scanOf 1 1 .receiving)
        .receiving ∧
      replyShape (frame 1 0x21 [0, 0, 0, 0, 0, 0, 0, 0, 2]) = true ∧
      (frame 1 0x21 [0, 0, 0, 0, 0, 0, 0, 0, 2]).length = 14 ∧
      crcCorrect (frame 1 0x21 [0, 0, 0, 0, 0, 0, 0, 0, 2]) = true ∧
      (byteAt (frame 1 0x21 [0, 0, 0, 0, 0, 0, 0, 0, 2]) 11).getLsbD 1 = true ∧
      replyShape (frame 1 0x22 [0]) = true ∧ crcCorrect (frame 1 0x22 [0]) = true ∧
      num8 (frame 1 0x22 [0]) 1 ≠ 0x21 ∧ replyShape [1, 0x21, 0, 0, 0] = true ∧
      crcCorrect [1, 0x21, 0, 0, 0] = false ∧
      replyShape (frame 2 0x22 [0, 0, 0, 0, 2]) = true ∧
      crcCorrect (frame 2 0x22 [0, 0, 0, 0, 2]) = true ∧
      (byteAt (frame 2 0x22 [0, 0, 0, 0, 2]) 7).getLsbD 1 = true := by
  refine ⟨scanning_scans 0 1 .receiving, scanning_scans 1 1 .receiving, ?_, ?_, ?_, ?_, ?_, ?_, ?_, ?_,
    ?_, ?_, ?_, ?_⟩ <;> decide +kernel

theorem witness_accepted_input_reply :
    (scanning 0 1 .receiving live).Scanning (cycleOf 0 1 .receiving) (scanOf 0 1 .receiving)
        .receiving ∧
      live.useOf 0 = .input ∧ (bank.moduleEntry 0).address < 256 ∧
      (List.replicate 8 (255 : Byte)).length = 8 ∧ (1 : Byte).getLsbD 1 = false ∧
      live.slc.banks.length < 2 := by
  refine ⟨scanning_scans 0 1 .receiving, rfl, ?_, rfl, ?_, ?_⟩ <;> decide

/-- The part with its RDM STARTING. -/
def starting : State := live.setModuleRec 1 { ModuleRec.init with state := .starting }

theorem witness_accepted_drive_reply :
    (scanning 1 1 .receiving live).Scanning (cycleOf 1 1 .receiving) (scanOf 1 1 .receiving)
        .receiving ∧
      live.useOf 1 = .output ∧ (bank.moduleEntry 1).address < 256 ∧
      (List.replicate 4 (0 : Byte)).length = 4 ∧ (0 : Byte).getLsbD 1 = false ∧
      (starting.moduleRec 1).state = .starting ∧ starting.system.recoveryCount = 3 := by
  refine ⟨scanning_scans 1 1 .receiving, rfl, ?_, rfl, ?_, rfl, rfl⟩ <;> decide

/-- The part with both modules LOST. -/
def lost : State :=
  (live.setModuleRec 0 { ModuleRec.init with state := .lost }).setModuleRec 1
    { ModuleRec.init with state := .lost }

theorem witness_module_changes :
    live.Canonical ∧ (lost.pointDeliverable (bank.pointEntry 0) = false) ∧
      (bank.pointEntry 0).usesModule 0 = true ∧
      (lost.pointRec 0).evaluated ≠ .unknown .module ∧
      ((lost.moduleNotice 0 1000).pointRec 0).evaluated = .unknown .module ∧
      (((lost.moduleNotice 0 1000).moduleNotice 0 1001).pointRec 0).evaluated = .unknown .module ∧
      live.cq.queue.length ≤ 240 ∧ (scanning 0 1 .awaiting live).slc.cycle = some (cycleOf 0 1 .awaiting) ∧
      (0 : ModuleNo) < 1 ∧ live.useOf 1 ≠ .unused ∧
      (∀ k : ModuleNo, 1 < k → live.useOf k = .unused) := by
  refine ⟨live_canonical, ?_, ?_, ?_, ?_, ?_, ?_, rfl, ?_, ?_, ?_⟩ <;> decide +kernel

theorem witness_module_state_machine :
    live.system = .defaults ∧ (live.moduleRec 0).state = .active := ⟨rfl, rfl⟩

theorem witness_set_code :
    live.channel 1 31 = some .init ∧ Channel.init.isFaulted = false ∧ Channel.init.drive ≠ .flash ∧
      { Channel.init with condition := .faulted none }.isFaulted = true :=
  ⟨rfl, rfl, by decide, rfl⟩

/-- Section 6.9: a mismatch from 60006 faults at 60106 and not at 60096. -/
theorem witness_supervision :
    0 < 100 ∧ interval 60006 60096 < 100 ∧ 100 ≤ interval 60006 60106 ∧
      { Channel.init with drive := .on, condition := .normal (some 60006) }.supervise false 60106
        100 = .fault { Channel.init with condition := .faulted none } := by
  refine ⟨?_, ?_, ?_, ?_⟩ <;> decide +kernel

/-- A slot that holds control 2 in CONFIRMING. -/
def confirming : Slot :=
  { phase := .confirming, control := 2, mod := 1, channel := 2, mode := .set, proving := none,
    endOnProof := false, acceptedAt := 500, pulseEnd := none, deadline := none, result := none }

/-- The part with control 2 in CONFIRMING, whose code ON the last DRIVE POLL has carried. -/
def polled : State :=
  (live.setSlot 0 (some confirming)).setChannel 1 2
    { Channel.init with drive := .on, lastSent := some .on }

theorem witness_readback :
    (polled.moduleRec 1).state = .active ∧ polled.cq.queue.length ≤ 176 ∧
      polled.slot 0 = some confirming ∧ (polled.oduReadback 1 4 1000).slot 0 = none ∧
      (polled.oduReadback 1 0 1000).slot 0 = some confirming ∧
      (polled.channel 1 2 = some { Channel.init with drive := .on, lastSent := some .on }) := by
  refine ⟨rfl, ?_, ?_, ?_, ?_, ?_⟩ <;> decide +kernel

/-- The hypotheses of the PAIR statement are none; these are its cases at their boundaries. -/
theorem witness_pair_transfer :
    ((bank.pointEntry 1).evalPair { PointRecord.init with
      evaluated := .known .up, candidate := some ⟨.down, 970⟩, pendingTransfer := some 40 }
      false true 1000).2 = some (40, true) ∧
    ((bank.pointEntry 1).evalPair { PointRecord.init with
      evaluated := .known .up, candidate := some ⟨.down, 971⟩, pendingTransfer := some 40 }
      false true 1000).2 = none ∧
    { PointRecord.init with evaluated := .known .up }.evaluated = .known .up ∧
      (PointRecord.init.candidate.map Candidate.target ≠ some .faultOpen) ∧
      0 < (bank.pointEntry 1).transitLimit ∧
      { PointRecord.init with evaluated := .known .down, openSince := some 970 }.evaluated =
        .known (if true then .down else .up) ∧ 0 < (bank.pointEntry 1).pickFilter ∧
      PointEntry.empty.pickFilter = 0 ∧
      ((bank.pointEntry 1).evalPair PointRecord.init true true 1000).2 = none := by
  refine ⟨?_, ?_, rfl, ?_, ?_, rfl, ?_, rfl, ?_⟩ <;> decide +kernel

theorem witness_flasher :
    { PointRecord.init with lastEdge := some 0, filteredLevel := some true }.lastEdge = some 0 ∧
      (bank.pointEntry 2).halfMax < interval 0 701 ∧ interval 0 700 ≤ (bank.pointEntry 2).halfMax ∧
      (bank.pointEntry 2).halfMax < 701 ∧ 299 < (bank.pointEntry 2).halfMin ∧
      (bank.pointEntry 2).halfMin ≤ 300 ∧ 700 ≤ (bank.pointEntry 2).halfMax := by
  refine ⟨rfl, ?_, ?_, ?_, ?_, ?_, ?_⟩ <;> decide +kernel

theorem witness_period_duty :
    0 < 350 + 650 ∧ 350 + 650 ≤ 65535 ∧ 65535 ≤ 65535 ∧ 65535 < 40000 + 40000 ∧ 40000 < 65535 := by decide

/-- The part with an image of module 0 in a reply bank. -/
def arrived : State := { live with slc := { live.slc with banks := [⟨0, 1, 1000⟩] } }

/-- The same part after module 0 has gone SUSPECT with its image still in the bank. -/
def waiting : State := arrived.setModuleRec 0 { ModuleRec.init with state := .suspect }

/-- A ripe candidate is accepted at the image of an ACTIVE module, and kept at the image that waited while
its module went SUSPECT (R9, R35). -/
theorem test_suspect_module_accepts_nothing :
    let held := { PointRecord.init with evaluated := .known .off, candidate := some ⟨.on, 900⟩ }
    ((next .imageArrival (arrived.setPointRec 0 held)).pointRec 0).evaluated = .known .on ∧
      (next .imageArrival (waiting.setPointRec 0 held)).pointRec 0 = held := by decide +kernel

/-- A FLASHER takes its steps at such an image, as at any other (R9, R37). -/
theorem test_suspect_flasher_takes_its_steps :
    let image := { waiting with slc := { waiting.slc with banks := [⟨0, 8, 1000⟩] } }
    ((next .imageArrival image).pointRec 2).levelCandidate.isSome ||
      ((next .imageArrival image).pointRec 2).lastEdge.isSome := by decide +kernel

theorem witness_arrival_of_one_point :
    arrived.pointDeliverable (bank.pointEntry 0) = true ∧
      arrived.pointDeliverable (bank.pointEntry 1) = true ∧
      arrived.pointDeliverable (bank.pointEntry 2) = true ∧
      (bank.pointEntry 0).cls = .single ∧ (bank.pointEntry 1).cls = .pair ∧
      (bank.pointEntry 2).cls = .flasher ∧
      ((bank.pointEntry 0).a.mod = 0 ∧ true = (1 : BitVec 64).getLsbD (bank.pointEntry 0).a.contact) ∧
      (arrived.moduleRec 0).state ≠ .suspect ∧
      lost.pointDeliverable (bank.pointEntry 0) = false ∧
      waiting.pointDeliverable (bank.pointEntry 0) = true ∧
      (waiting.moduleRec 0).state = .suspect := by
  refine ⟨?_, ?_, ?_, rfl, rfl, rfl, ?_, ?_, ?_, ?_, ?_⟩ <;> decide +kernel

theorem witness_image_arrival :
    arrived.Running ∧ arrived.slc.banks = ⟨0, 1, 1000⟩ :: [] ∧
      (bank.pointEntry 0).usesModule 0 = true ∧
      arrived.pointDeliverable (bank.pointEntry 0) = true ∧
      (bank.pointEntry 1023).usesModule 0 = false ∧
      (live.setModuleRec 0 { ModuleRec.init with state := .lost }).pointDeliverable
        (bank.pointEntry 0) = false ∧
      ((next .imageArrival arrived).pointRec 0).candidate = some ⟨.on, 1000⟩ ∧
      waiting.slc.banks = ⟨0, 1, 1000⟩ :: [] ∧ (waiting.moduleRec 0).state = .suspect ∧
      waiting.pointDeliverable (bank.pointEntry 0) = true ∧
      (bank.pointEntry 0).cls ≠ .flasher ∧
      (next .imageArrival waiting).pointRec 0 =
        { waiting.pointRec 0 with candidate := some ⟨.on, 1000⟩ } ∧
      (next .imageArrival waiting).slc.banks = [] := by
  refine ⟨rfl, rfl, ?_, ?_, ?_, ?_, ?_, rfl, ?_, ?_, ?_, ?_, ?_⟩ <;> decide +kernel

theorem witness_image_arrival_waits :
    ∃ h, h ∈ ({ arrived with age := handing.age } : State).age.handOvers ∧ h.arrival = true :=
  ⟨_, List.mem_cons_self, rfl⟩

theorem witness_hand_overs :
    live.Canonical ∧ live.AgeInStep ∧
      ({ live with age := { handOvers := [], pace := [0, 3] } } : State).age.pace = 0 :: [3] ∧
      handing.age.handOvers =
        { arrival := true, time := 990, groups := 0 :: [], clears := [] } :: [] ∧
      ((live.ageArrival 0 1000).groupRec 0).code = .unknown .init :=
  ⟨live_canonical, ⟨rfl, rfl⟩, rfl, rfl, by decide +kernel⟩

theorem witness_image_arrival_canonical : arrived.Canonical :=
  ⟨live_canonical.active, live_canonical.shadow, live_canonical.modules, live_canonical.points,
    live_canonical.groups, live_canonical.channels, live_canonical.banks, live_canonical.slots⟩

theorem witness_group :
    [PointState.known .on, .unknown .wetting] =
      [PointState.known .on] ++ .unknown .wetting :: [] ∧
      ((List.finRange 512).filter fun i => (bank.groupEntry 0).firstPattern.val ≤ i.val &&
          i.val < (bank.groupEntry 0).firstPattern.val + (bank.groupEntry 0).patternCount) =
        [] ++ (0 : PatternNo) :: [] ∧
      (bank.patternEntry 0).required[0] = some .on ∧ (bank.patternEntry 0).required[1] = none ∧
      (bank.groupEntry 0).settleTime ≤ interval 700 1000 ∧
      bank.judgeGroup (bank.groupEntry 0) ⟨.code 3, some 700⟩ [.known .off] true 1000 =
        ⟨.code 0, some 700⟩ := by
  refine ⟨rfl, ?_, ?_, ?_, ?_, ?_⟩ <;> decide +kernel

theorem witness_queue :
    live.cq.queue.length < 256 ∧ live.cq.queue.length < live.system.watermark ∧
      256 ≤ (List.replicate 256 (⟨false, 0, .refreshEnd⟩ : Record)).length ∧
      live.system.watermark ≤ (List.replicate 192 (⟨false, 0, .refreshEnd⟩ : Record)).length := by
  refine ⟨?_, ?_, ?_, ?_⟩ <;> decide +kernel

theorem witness_layouts :
    ModuleEntry.inRange ⟨.output, 62⟩ ∧ (bank.pointEntry 1).inRange ∧
      (bank.groupEntry 0).inRange ∧ PatternEntry.inRange { PatternEntry.empty with aspect := 15 } ∧
      (bank.commandEntry 0).inRange ∧ SystemRecord.defaults.inRange = true ∧
      { bank.pointEntry 1 with halfMax := 10001 }.sendable := by
  unfold PointEntry.sendable ModuleEntry.inRange PointEntry.inRange GroupEntry.inRange PatternEntry.inRange
    CommandEntry.inRange
  decide +kernel

theorem witness_step_canonical :
    live.Canonical ∧ step live = .next (next .cycleStart live) :=
  ⟨live_canonical, rfl⟩

theorem witness_within_capacity : live.WithinCapacity where
  queue := by decide
  banks := by decide
  buffers := by decide
  answers := by decide
  indication := by intro h rs hr; exact absurd hr (by simp [live, State.reset, State.afterReset])
  arrivals := by decide
  activeSystem := by decide
  shadowSystem := by decide

theorem witness_age_in_step : live.AgeInStep := ⟨rfl, rfl⟩

theorem witness_counters_bounded : live.CountersBounded where
  modules := by unfold ModuleRec.withinLimits; decide +kernel
  cycleOverruns := by decide
  queueOverflows := by decide
  deskCrcErrors := by decide
  deskRxOverruns := by decide
  deskSilenceEvents := by decide

theorem witness_counters_rise :
    Instr.replyTimeout 400 ≠ .counterClear ∧ (∀ key, Instr.replyTimeout 400 ≠ .powerOnReset key) ∧
      (∀ key, Instr.replyTimeout 400 ≠ .restartReset key) ∧
      exec (.replyTimeout 400) (scanning 0 1 .awaiting live) =
        .next (next (.replyTimeout 400) (scanning 0 1 .awaiting live)) :=
  ⟨by decide, fun _ => by simp, fun _ => by simp, rfl⟩

theorem witness_mode_sound : live.ModeSound where
  pendingInMaintenance := by decide
  pendingValidated := by decide
  pendingWithoutSlots := by intro h; exact absurd h (by decide)
  maintenanceWithKey := by decide
  configuredValidated := by decide +kernel
  unconfiguredEmpty := by intro h; exact absurd h (by decide)
  unconfiguredIdle := by intro h; exact absurd h (by decide)
  unconfiguredUndriven := by intro h; exact absurd h (by decide)
  unconfiguredWithoutSlots := by intro h; exact absurd h (by decide)

theorem witness_slots_sound : (live.setSlot 0 (some driving)).SlotsSound := by
  have only : ∀ k sl, (live.setSlot 0 (some driving)).slot k = some sl → k = 0 ∧ sl = driving := by
    intro k sl h
    rw [State.slot_setSlot] at h
    split at h
    · next hk => exact ⟨hk, by simpa using h.symm⟩
    · exact absurd h (by simp [State.slot, live, State.reset, State.afterReset])
  refine ⟨fun j k a b ha hb _ _ => ?_, fun k sl h => ?_⟩
  · rw [(only j a ha).1, (only k b hb).1]
  · rw [(only k sl h).2]
    simp [Slot.sound, driving]

theorem witness_deliverability : live.DeliverabilityLaw := by
  intro p _ _
  exact ⟨.init, rfl⟩

theorem witness_measurements : live.MeasurementsBounded := by
  constructor
  · intro p
    refine ⟨?_, ?_, ?_, ?_⟩ <;> intro x h <;>
      exact absurd h (by simp [State.pointRec, live, State.reset, State.afterReset, PointRecord.init])
  · intro p _
    exact Nat.zero_le _

end Sys2Proof.Tests
end

/-! PROOFS. The law of deliverability (R6) is kept by every step, and the state after reset meets every
invariant. A step keeps the law in one of three ways: it takes no delivery away (`Sustains`), it gives the
module notice of the delivery it takes away (`State.moduleNotice_law`), or it re-initialises every point
whose modules it does not keep (`State.swap_law`). -/

namespace Sys2Proof.Table

/-- Where the empty entry fails a condition, the numbers listed with it are those whose entry meets it. -/
theorem mem_keysWhere {n : Nat} {α : Type} {d : α} {p : α → Bool} (hd : p d = false) (t : Table n α)
    (i : Fin n) : i ∈ keysWhere d t p ↔ p (get d t i) = true := by
  refine ⟨fun h => (List.mem_filter.1 h).2, fun h => List.mem_filter.2 ⟨?_, h⟩⟩
  by_contra hi
  rw [get_eq_of_not_mem d t i hi, hd] at h
  exact Bool.false_ne_true h

end Sys2Proof.Table

namespace Sys2Proof.Machine

/-! ### Deliverability -/

/-- The contacts of a module with this record are deliverable (R5). -/
def ModuleRec.delivers (r : ModuleRec) : Bool := r.state.heard && !r.wetting

theorem State.pointDeliverable_iff (s : State) (e : PointEntry) :
    s.pointDeliverable e = true ↔ ∀ c ∈ e.contacts, (s.moduleRec c.mod).delivers = true :=
  List.all_eq_true

theorem PointEntry.usesModule_eq_false (e : PointEntry) (m : ModuleNo) :
    e.usesModule m = false ↔ ∀ c ∈ e.contacts, c.mod ≠ m := by
  simp [PointEntry.usesModule]

theorem State.mem_pointsOn (s : State) (m : ModuleNo) (p : PointNo) :
    p ∈ s.pointsOn m ↔ (s.ts.active.pointEntry p).usesModule m = true :=
  Table.mem_keysWhere rfl s.ts.active.points p

/-- The law of deliverability at one point (R6). -/
def State.LawfulAt (s : State) (p : PointNo) : Prop :=
  (s.ts.active.pointEntry p).isDefined →
    s.pointDeliverable (s.ts.active.pointEntry p) = false →
      ∃ cause, (s.pointRec p).evaluated = .unknown cause

theorem State.deliverabilityLaw_iff (s : State) : s.DeliverabilityLaw ↔ ∀ p, s.LawfulAt p := Iff.rfl

/-! ### Changes that take no delivery away -/

/-- `t` has the tables of `s`, delivers every point that `s` delivers, and leaves no point that is UNKNOWN
in `s` and not deliverable in `t` anything but UNKNOWN. -/
structure Sustains (s t : State) : Prop where
  active : t.ts.active = s.ts.active
  deliverable : ∀ e, s.pointDeliverable e = true → t.pointDeliverable e = true
  unknown : ∀ p, t.pointDeliverable (s.ts.active.pointEntry p) = false →
    (∃ cause, (s.pointRec p).evaluated = .unknown cause) →
      ∃ cause, (t.pointRec p).evaluated = .unknown cause

theorem Sustains.lawfulAt {s t : State} (h : Sustains s t) {p : PointNo} (hp : s.LawfulAt p) :
    t.LawfulAt p := by
  intro hd hn
  rw [h.active] at hd hn
  refine h.unknown p hn (hp hd ?_)
  rw [← Bool.not_eq_true] at hn ⊢
  exact mt (h.deliverable _) hn

theorem Sustains.law {s t : State} (h : Sustains s t) (hs : s.DeliverabilityLaw) :
    t.DeliverabilityLaw :=
  t.deliverabilityLaw_iff.2 fun p => h.lawfulAt (s.deliverabilityLaw_iff.1 hs p)

/-- No module stops delivering, and no evaluated state changes. -/
theorem Sustains.of_modules {s t : State} (ha : t.ts.active = s.ts.active)
    (hm : ∀ m, (s.moduleRec m).delivers = true → (t.moduleRec m).delivers = true)
    (hp : ∀ p, (t.pointRec p).evaluated = (s.pointRec p).evaluated) : Sustains s t where
  active := ha
  deliverable e he := by
    rw [State.pointDeliverable_iff] at he ⊢
    exact fun c hc => hm c.mod (he c hc)
  unknown p _ hu := by rwa [hp p]

/-- Neither the ACTIVE bank nor a module record nor a point record changes. -/
theorem Sustains.of_same {s t : State} (ha : t.ts.active = s.ts.active)
    (hm : t.slc.modules = s.slc.modules) (hp : t.pe.points = s.pe.points) : Sustains s t := by
  refine .of_modules ha (fun m hd => ?_) fun p => ?_
  · unfold State.moduleRec at hd ⊢; rwa [hm]
  · unfold State.pointRec; rw [hp]

theorem Sustains.refl (s : State) : Sustains s s := .of_same rfl rfl rfl

theorem Sustains.trans {s t u : State} (h : Sustains s t) (h' : Sustains t u) : Sustains s u where
  active := h'.active.trans h.active
  deliverable e he := h'.deliverable e (h.deliverable e he)
  unknown p hn hu := by
    have hn' : t.pointDeliverable (s.ts.active.pointEntry p) = false := by
      rw [← Bool.not_eq_true] at hn ⊢
      exact mt (h'.deliverable _) hn
    exact h'.unknown p (by rwa [h.active]) (h.unknown p hn' hu)

theorem Sustains.foldl {α : Type} (f : State → α → State) (h : ∀ s a, Sustains s (f s a))
    (l : List α) (s : State) : Sustains s (l.foldl f s) := by
  induction l generalizing s with
  | nil => exact .refl s
  | cons a l ih => exact (h s a).trans (ih _)

/-- What touches neither tables nor modules nor points takes no delivery away. -/
theorem Frame.sustains {l : List Block} {s t : State} (h : Frame l s t)
    (hts : .ts ∉ l := by decide) (hslc : .slc ∉ l := by decide) (hpe : .pe ∉ l := by decide) :
    Sustains s t :=
  .of_same (congrArg TableStore.active (h.blocks .ts hts))
    (congrArg ScanLine.modules (h.blocks .slc hslc))
    (congrArg PointEvaluator.points (h.blocks .pe hpe))

/-- What touches the SLC alone and keeps its module records takes no delivery away. -/
theorem Frame.sustains_of_modules {s t : State} (h : Frame [.slc] s t)
    (hm : t.slc.modules = s.slc.modules) : Sustains s t :=
  .of_same (congrArg TableStore.active (h.blocks .ts (by decide))) hm
    (congrArg PointEvaluator.points (h.blocks .pe (by decide)))

variable (s : State)

theorem State.transmitNext_sustains : Sustains s s.transmitNext :=
  s.transmitNext_frame.sustains

theorem State.ageFinish_sustains : Sustains s s.ageFinish :=
  s.ageFinish_frame.sustains

theorem State.startCycle_sustains (late : Bool) : Sustains s (s.startCycle late) :=
  (s.startCycle_frame late).sustains_of_modules (s.startCycle_modules late)

theorem State.endScan_sustains (m : ModuleNo) : Sustains s (s.endScan m) :=
  (s.endScan_frame m).sustains_of_modules (s.endScan_modules m)

theorem State.endHold_sustains : Sustains s s.endHold :=
  s.endHold_frame.sustains_of_modules s.endHold_modules

theorem State.placeImage_sustains (i : BankImage) : Sustains s (s.placeImage i) := by
  refine (s.placeImage_frame i).sustains_of_modules ?_
  unfold State.placeImage
  split <;> rfl

theorem State.withdrawCommit_sustains : Sustains s s.withdrawCommit := by
  unfold State.withdrawCommit
  split
  · refine Sustains.trans ?_ (State.endHold_sustains _)
    exact .of_same rfl rfl rfl
  · exact .refl s

theorem State.leaveMaintenance_sustains : Sustains s s.leaveMaintenance := by
  refine Sustains.trans ?_ (State.withdrawCommit_sustains _)
  exact .of_same rfl rfl rfl

theorem State.requestMode_sustains (named : Nat) {t : State} (h : s.requestMode named = some t) :
    Sustains s t := by
  unfold State.requestMode at h
  split at h
  · cases h; exact .refl s
  · cases h; exact s.leaveMaintenance_sustains
  · split at h
    · cases h; exact .of_same rfl rfl rfl
    · cases h
  · split at h
    · cases h; exact .refl s
    · cases h
  · cases h

theorem State.takeModeRequest_sustains (request : Byte) (named : Nat) :
    Sustains s (s.takeModeRequest request named) := by
  unfold State.takeModeRequest
  split
  · exact .of_same rfl rfl rfl
  · next t ht => exact (s.requestMode_sustains named ht).trans (.of_same rfl rfl rfl)

theorem State.takeTableWrite_sustains (request : Byte) (body : List Byte) :
    Sustains s (s.takeTableWrite request body) := .of_same rfl rfl rfl

theorem State.takeCancel_sustains (request : Byte) (c : ControlNo) :
    Sustains s (s.takeCancel request c) := by
  unfold State.takeCancel
  split
  · exact .of_same rfl rfl rfl
  · next k _ =>
    split
    · exact .of_same rfl rfl rfl
    · next sl _ =>
      exact (s.cancelSlot_frame k sl s.now).sustains.trans
        (.of_same rfl rfl rfl)

theorem State.takeTableRead_sustains (request : Byte) (body : List Byte) :
    Sustains s (s.takeTableRead request body) := by
  unfold State.takeTableRead
  split <;> exact .of_same rfl rfl rfl

theorem State.takeTraceSelect_sustains (request : Byte) (number : Nat) :
    Sustains s (s.takeTraceSelect request number) := by
  unfold State.takeTraceSelect
  split
  · exact .of_same rfl rfl rfl
  · split <;> exact .of_same rfl rfl rfl

theorem State.takeDiagRead_sustains (t : RxTelegram) (selector count : Nat)
    (contents : State → Fin count → List Byte) :
    Sustains s (s.takeDiagRead t selector count contents) := by
  unfold State.takeDiagRead
  dsimp only
  split
  · exact .of_same rfl rfl rfl
  · split <;> exact .of_same rfl rfl rfl

/-- COUNTER_CLEAR leaves the states and the wetting flags of the modules alone (R90). -/
theorem State.clearCounters_sustains : Sustains s s.clearCounters := by
  refine .of_modules rfl (fun m hd => ?_) fun _ => rfl
  have hm : s.clearCounters.moduleRec m = (s.moduleRec m).clearCounters :=
    Table.get_update ModuleRec.init _ (fun _ => rfl) s.slc.modules m
  rwa [hm]

/-- A module record that delivers if the one before did takes no delivery away. -/
theorem State.setModuleRec_sustains (m : ModuleNo) (r : ModuleRec)
    (h : (s.moduleRec m).delivers = true → r.delivers = true) : Sustains s (s.setModuleRec m r) := by
  refine .of_modules rfl (fun k hk => ?_) fun _ => rfl
  rw [State.moduleRec_setModuleRec]
  split
  · next e => exact h (e ▸ hk)
  · exact hk

theorem State.moduleRecord_sustains (m : ModuleNo) (old new : ModuleState) (t : Time) :
    Sustains s (s.moduleRecord m old new t) :=
  (s.moduleRecord_frame m old new t).sustains

/-! ### Points: the record handed on, and what the PE does to it -/

/-- Handing on writes the record of its own point and of no other (R10). -/
theorem State.pointRec_handOn (p q : PointNo) (new : PointRecord) (t : Time) (x : PointExtra) :
    (s.handOn p new t x).pointRec q = if q = p then new else s.pointRec q := by
  rw [← s.pointRec_setPointRec]
  have hp : Frame [.cq] (s.setPointRec p new)
      ((s.setPointRec p new).handPoint p (s.pointRec p) new t x) := State.handPoint_frame _ _ _ _ _ _
  unfold State.handOn
  dsimp only
  split
  · rw [(State.csuNotice_frame _ p new.evaluated).pointRec_eq (by decide), hp.pointRec_eq (by decide)]
  · exact hp.pointRec_eq (by decide) q

/-- The record of a point found not deliverable is UNKNOWN with the loss cause (R6). -/
theorem State.losePoint_unknown (p : PointNo) (t : Time) :
    ((s.losePoint p t).pointRec p).evaluated =
      .unknown (s.lossCause (s.ts.active.pointEntry p)) := by
  unfold State.losePoint
  dsimp only
  split
  · next h => simpa [State.pointRec_setPointRec, PointRecord.lostAgain] using h
  · simp [State.pointRec_handOn, PointRecord.loseTo]

theorem State.losePoint_other {p q : PointNo} (h : q ≠ p) (t : Time) :
    (s.losePoint p t).pointRec q = s.pointRec q := by
  unfold State.losePoint
  dsimp only
  split
  · simp [State.pointRec_setPointRec, h]
  · simp [State.pointRec_handOn, h]

theorem State.traceSample_pointRec (p q : PointNo) (l : TraceLevels) (t : Time) :
    (s.traceSample p l t).pointRec q = s.pointRec q := by
  unfold State.traceSample
  split
  · exact (s.handTrace_frame t p l).pointRec_eq (by decide) q
  · rfl

theorem State.arriveAt_other (arr : BankImage) {p q : PointNo} (h : q ≠ p) :
    (s.arriveAt arr p).pointRec q = s.pointRec q := by
  unfold State.arriveAt
  dsimp only
  split
  · split
    · rfl
    · simp [State.traceSample_pointRec, State.pointRec_handOn, h]
  · exact s.losePoint_other h _

/-- What leaves tables and modules alone, and writes no point but `p`, takes no delivery away where `p` is
UNKNOWN after it unless it is deliverable. -/
theorem Sustains.of_point {s t : State} (p : PointNo) (h : Frame pointBlocks s t)
    (other : ∀ q, q ≠ p → t.pointRec q = s.pointRec q)
    (own : s.pointDeliverable (s.ts.active.pointEntry p) = false →
      ∃ cause, (t.pointRec p).evaluated = .unknown cause) : Sustains s t where
  active := congrArg TableStore.active (h.blocks .ts (by decide))
  deliverable e he := by rwa [h.pointDeliverable_eq (by decide)]
  unknown q hn hu := by
    by_cases hq : q = p
    · subst hq
      rw [h.pointDeliverable_eq (by decide)] at hn
      exact own hn
    · rwa [other q hq]

theorem State.losePoint_sustains (p : PointNo) (t : Time) : Sustains s (s.losePoint p t) :=
  .of_point p (s.losePoint_frame p t) (fun _ hq => s.losePoint_other hq t)
    fun _ => ⟨_, s.losePoint_unknown p t⟩

/-- An image's evaluation of a point leaves no UNKNOWN but at a deliverable point (R9). -/
theorem State.arriveAt_sustains (arr : BankImage) (p : PointNo) : Sustains s (s.arriveAt arr p) := by
  refine .of_point p (s.arriveAt_frame arr p) (fun _ hq => s.arriveAt_other arr hq) fun hn => ?_
  have hl : s.arriveAt arr p = s.losePoint p arr.time := by simp [State.arriveAt, hn]
  exact ⟨_, hl ▸ s.losePoint_unknown p arr.time⟩

theorem State.takeArrival_sustains (arr : BankImage) (rest : List BankImage) :
    Sustains s (s.takeArrival arr rest) := by
  refine Sustains.trans ?_
    (State.ageArrival_frame _ _ _).sustains
  refine (Sustains.foldl (fun s p => s.arriveAt arr p) (fun s p => s.arriveAt_sustains arr p)
    (s.pointsOn arr.mod) s).trans ?_
  exact .of_same rfl rfl rfl

/-- A substitute value leaves the evaluated state alone (R13). -/
theorem State.setSubstitute_sustains (p : PointNo) (v : Option StateValue) (x : PointExtra) :
    Sustains s (s.setSubstitute p v x) := by
  refine Sustains.trans (t := s.setPointRec p { s.pointRec p with substitute := v }) ?_
    (State.handPoint_frame _ _ _ _ _ _).sustains
  refine .of_modules rfl (fun _ h => h) fun q => ?_
  rw [State.pointRec_setPointRec]
  split
  · next h => rw [h]
  · rfl

theorem State.ageChange_sustains (set : List PointNo) (t : Time) : Sustains s (s.ageChange set t) :=
  (s.ageChange_frame set t).sustains

theorem State.takeSubstitute_sustains (request : Byte) (number code : Nat) :
    Sustains s (s.takeSubstitute request number code) := by
  unfold State.takeSubstitute
  split
  · exact .of_same rfl rfl rfl
  · next p v _ =>
    refine Sustains.trans (t := s.imposeSubstitute p v) ?_ (.of_same rfl rfl rfl)
    unfold State.imposeSubstitute
    dsimp only
    split
    · exact (s.setSubstitute_sustains _ _ _).trans (State.ageChange_sustains _ _ _)
    · exact s.setSubstitute_sustains _ _ _

theorem State.takeRelease_sustains (request : Byte) (number : Nat) :
    Sustains s (s.takeRelease request number) := by
  unfold State.takeRelease
  split
  · exact .of_same rfl rfl rfl
  · next p _ =>
    split
    · exact .of_same rfl rfl rfl
    · refine Sustains.trans (t := s.removeSubstitute p) ?_ (.of_same rfl rfl rfl)
      unfold State.removeSubstitute
      dsimp only
      split
      · exact (s.setSubstitute_sustains _ _ _).trans (State.ageChange_sustains _ _ _)
      · exact s.setSubstitute_sustains _ _ _

/-! ### Module notices (R8) -/

theorem noticePoint_sustains (t : Time) (acc : State × List PointNo) (p : PointNo) :
    Sustains acc.1 (noticePoint t acc p).1 := by
  unfold noticePoint
  simp only
  split
  · exact .refl _
  · exact acc.1.losePoint_sustains p t

/-- A notice handled at a point leaves the law standing there. -/
theorem noticePoint_lawfulAt (t : Time) (acc : State × List PointNo) (p : PointNo) :
    (noticePoint t acc p).1.LawfulAt p := by
  unfold noticePoint
  simp only
  split
  · next hd => exact fun _ hn => absurd hd (by simp [hn])
  · exact fun _ _ => ⟨_, acc.1.losePoint_unknown p t⟩

theorem noticePoints_lawfulAt (t : Time) (l : List PointNo) (acc : State × List PointNo) (q : PointNo)
    (h : q ∈ l ∨ acc.1.LawfulAt q) : (l.foldl (noticePoint t) acc).1.LawfulAt q := by
  induction l generalizing acc with
  | nil => simpa using h
  | cons p l ih =>
    refine ih _ ?_
    by_cases hq : q = p
    · exact .inr (hq ▸ noticePoint_lawfulAt t acc p)
    · rcases h with h | h
      · exact .inl ((List.mem_cons.1 h).resolve_left hq)
      · exact .inr ((noticePoint_sustains t acc p).lawfulAt h)

/-- A module's notice restores the law at every point with a contact on it (R8). -/
theorem State.moduleNotice_law (m : ModuleNo) (t : Time)
    (h : ∀ p, (s.ts.active.pointEntry p).usesModule m = false → s.LawfulAt p) :
    (s.moduleNotice m t).DeliverabilityLaw := by
  refine (State.ageNotice_frame _ _ _).sustains.law fun q => ?_
  refine noticePoints_lawfulAt t (s.pointsOn m) (s, []) q ?_
  cases hu : (s.ts.active.pointEntry q).usesModule m with
  | true => exact .inl ((s.mem_pointsOn m q).2 hu)
  | false => exact .inr (h q hu)

/-! ### The end of a scan (R78 to R84) -/

/-- Every contact of a point lies on an INPUT module (R153 check 2). -/
def Tables.PointsOnInputs (b : Tables) : Prop :=
  ∀ p m, (b.pointEntry p).usesModule m = true → (b.moduleEntry m).use = .input

theorem firstFailing_eq_none {n : Nat} {α : Type} {table : TableId} {t : Table n α}
    {fails : Fin n → Bool} (h : firstFailing table t fails = none) {i : Fin n} (hi : i ∈ t.keys) :
    fails i = false := by
  simp only [firstFailing, Option.map_eq_none_iff, List.head?_eq_none_iff,
    List.filter_eq_nil_iff] at h
  simpa using h i hi

theorem Tables.pointsOnInputs_of_valid {b : Tables} (h : b.firstInvalid = none) :
    b.PointsOnInputs := by
  intro p m hu
  have hp : p ∈ b.points.keys := by
    by_contra hp
    rw [Tables.pointEntry, Table.get_eq_of_not_mem _ _ _ hp] at hu
    exact absurd hu (by simp [PointEntry.usesModule, PointEntry.contacts, PointEntry.empty])
  simp only [Tables.firstInvalid, Option.or_eq_none_iff] at h
  obtain ⟨-, hpoints, -⟩ := h
  have hf := firstFailing_eq_none hpoints hp
  simp only [Tables.pointFails, Bool.or_eq_false_iff, List.any_eq_false] at hf
  obtain ⟨⟨hc, -⟩, -⟩ := hf
  obtain ⟨c, hmem, hm⟩ := List.any_eq_true.1 hu
  simpa [of_decide_eq_true hm] using hc c hmem

/-- In every sound mode the contacts in force lie on INPUT modules: validated, or there are none (R69,
R153). -/
theorem State.ModeSound.pointsOnInputs {s : State} (h : s.ModeSound) :
    s.ts.active.PointsOnInputs := by
  by_cases hm : s.ts.mode = .unconfigured
  · rw [h.unconfiguredEmpty hm]
    exact fun p m hu => absurd hu (by simp [Tables.empty, Tables.pointEntry, PointEntry.usesModule,
      PointEntry.contacts, PointEntry.empty])
  · exact Tables.pointsOnInputs_of_valid (h.configuredValidated hm)

/-- A module record leaves the law alone at the points with no contact on the module. -/
theorem State.lawfulAt_setModuleRec (m : ModuleNo) (r : ModuleRec) {p : PointNo}
    (hu : (s.ts.active.pointEntry p).usesModule m = false) (h : s.LawfulAt p) :
    (s.setModuleRec m r).LawfulAt p := by
  intro hd hn
  refine h hd ?_
  rw [← Bool.not_eq_true, State.pointDeliverable_iff] at hn ⊢
  refine mt (fun hs c hc => ?_) hn
  rw [State.moduleRec_setModuleRec, if_neg ((PointEntry.usesModule_eq_false _ m).1 hu c hc)]
  exact hs c hc

/-- The notices of a change of state restore the law at every point with a contact on the module: an
INPUT module's by the module notice, and no other module has any (R84). -/
theorem State.stateNotices_law (m : ModuleNo) (new : ModuleState) (t : Time)
    (hin : s.ts.active.PointsOnInputs)
    (h : ∀ p, (s.ts.active.pointEntry p).usesModule m = false → s.LawfulAt p) :
    (s.stateNotices m new t).DeliverabilityLaw := by
  have unused (hm : s.useOf m ≠ .input) : s.DeliverabilityLaw := fun p =>
    h p (by rw [← Bool.not_eq_true]; exact fun hu => hm (hin p m hu))
  unfold State.stateNotices
  split
  · exact s.moduleNotice_law m t h
  · next hm =>
    have hs := unused (by simp [hm])
    split
    · have lost : Frame commandBlocks s ((s.oduModuleLost m).csuModuleLost m t) :=
        (s.oduModuleLost_frame m).ofChannels.trans (State.csuModuleLost_frame _ m t)
      exact lost.sustains.law hs
    · exact hs
  · next hm => exact unused (by simp [hm])

/-- A module's new record with its MODULE record: the law stands at every point with no contact on the
module, and everywhere if the module's state and wetting flag are as before. -/
theorem State.storeModule_law (m : ModuleNo) (new : ModuleRec) (t : Time) (h : s.DeliverabilityLaw) :
    let u := (s.setModuleRec m new).moduleRecord m (s.moduleRec m).state new.state t
    u.ts.active = s.ts.active ∧
      (∀ p, (u.ts.active.pointEntry p).usesModule m = false → u.LawfulAt p) ∧
      (new.state = (s.moduleRec m).state → new.wetting = (s.moduleRec m).wetting →
        u.DeliverabilityLaw) := by
  intro u
  have hu : Sustains (s.setModuleRec m new) u := State.moduleRecord_sustains _ _ _ _ _
  have ha : u.ts.active = s.ts.active := hu.active
  refine ⟨ha, fun p hp => ?_, fun hst hw => ?_⟩
  · exact hu.lawfulAt (s.lawfulAt_setModuleRec m new (ha ▸ hp) (h p))
  · refine hu.law ((s.setModuleRec_sustains m new fun hd => ?_).law h)
    simpa only [ModuleRec.delivers, hst, hw] using hd

/-- A module's new record with what a change of its state hands on: the law stands after it if the
wetting flag is as before (R84). -/
theorem State.storeState_law (m : ModuleNo) (new : ModuleRec) (t : Time)
    (hin : s.ts.active.PointsOnInputs) (h : s.DeliverabilityLaw)
    (hw : new.wetting = (s.moduleRec m).wetting) :
    let u := (s.setModuleRec m new).moduleRecord m (s.moduleRec m).state new.state t
    (if new.state ≠ (s.moduleRec m).state then u.stateNotices m new.state t
      else u).DeliverabilityLaw := by
  intro u
  obtain ⟨ha, hoff, hsame⟩ := s.storeModule_law m new t h
  split
  · exact u.stateNotices_law m new.state t (ha ▸ hin) hoff
  · next hst => exact hsame (not_not.1 hst) hw

theorem State.missScan_law (m : ModuleNo) (t : Time) (hin : s.ts.active.PointsOnInputs)
    (h : s.DeliverabilityLaw) : (s.missScan m t).DeliverabilityLaw :=
  (State.endScan_sustains _ m).law
    (s.storeState_law m ((s.moduleRec m).missedScan s.system) t hin h rfl)

theorem State.acceptDrive_law (m : ModuleNo) (l : BitVec 32) (t : Time)
    (hin : s.ts.active.PointsOnInputs) (h : s.DeliverabilityLaw) :
    (s.acceptDrive m l t).DeliverabilityLaw := by
  unfold State.acceptDrive
  refine (State.endScan_sustains _ m).law ?_
  refine (State.oduReadback_frame _ m l t).sustains.law ?_
  have hw : (({ s.moduleRec m with readback := some ⟨l, t⟩ } : ModuleRec).goodScan
    s.system).wetting = (s.moduleRec m).wetting := rfl
  generalize ({ s.moduleRec m with readback := some ⟨l, t⟩ } : ModuleRec).goodScan s.system = new
    at hw ⊢
  exact s.storeState_law m new t hin h hw

/-- An accepted image restores the law after a change of state or wetting by its module notice (R79). -/
theorem State.acceptInput_law (m : ModuleNo) (l : BitVec 64) (w : Bool) (t : Time)
    (h : s.DeliverabilityLaw) : (s.acceptInput m l w t).DeliverabilityLaw := by
  unfold State.acceptInput
  dsimp only
  generalize ({ s.moduleRec m with image := some ⟨l, t⟩, wetting := w } : ModuleRec).goodScan
    s.system = new
  obtain ⟨-, hoff, hsame⟩ := s.storeModule_law m new t h
  generalize (s.setModuleRec m new).moduleRecord m (s.moduleRec m).state new.state t = u at hoff hsame
  have noticed : (if new.state ≠ (s.moduleRec m).state ∨ new.wetting ≠ (s.moduleRec m).wetting
      then u.moduleNotice m t else u).DeliverabilityLaw := by
    split
    · exact u.moduleNotice_law m t hoff
    · next hne =>
      obtain ⟨hst, hw⟩ := not_or.1 hne
      exact hsame (not_not.1 hst) (not_not.1 hw)
  refine (State.endScan_sustains _ m).law ?_
  split
  · exact (State.placeImage_sustains _ _).law noticed
  · exact noticed

theorem State.judgeReply_law (m : ModuleNo) (use : Use) (d : List Byte)
    (hin : s.ts.active.PointsOnInputs) (h : s.DeliverabilityLaw) :
    (s.judgeReply m use d).DeliverabilityLaw := by
  unfold State.judgeReply
  dsimp only
  split
  · exact s.missScan_law m _ hin h
  · split
    · exact s.acceptInput_law m _ _ _ h
    · exact s.acceptDrive_law m _ _ hin h
    · exact h

/-- A counter of the polled module raised, and the attempt failed (R76, R77). -/
theorem State.countFailure_law (clock : Micros) (c : Cycle) (sc : Scan) (r : ModuleRec) (t : Time)
    (hr : r.delivers = (s.moduleRec sc.mod).delivers) (hin : s.ts.active.PointsOnInputs)
    (h : s.DeliverabilityLaw) :
    (((s.setLineClock clock).setModuleRec sc.mod r).failAttempt c sc t).DeliverabilityLaw := by
  have hu : ((s.setLineClock clock).setModuleRec sc.mod r).DeliverabilityLaw :=
    ((Sustains.of_same rfl rfl rfl).trans
      (State.setModuleRec_sustains _ sc.mod r fun hd => hr.trans hd)).law h
  rcases State.failAttempt_cases ((s.setLineClock clock).setModuleRec sc.mod r) c sc t with
    ⟨-, e⟩ | ⟨-, e⟩
  · rw [e]
    exact (Sustains.of_same rfl rfl rfl).law hu
  · rw [e]
    exact State.missScan_law _ sc.mod t hin hu

theorem State.takeReply_law (use : Use) (reply : Reply) (hin : s.ts.active.PointsOnInputs)
    (h : s.DeliverabilityLaw) {t : State} (ht : s.takeReply use reply = some t) :
    t.DeliverabilityLaw := by
  unfold State.takeReply at ht
  split at ht
  · cases ht
  · dsimp only at ht
    split at ht
    · cases ht
    · split at ht
      · cases ht
        exact s.countFailure_law _ _ _ _ _ rfl hin h
      · cases ht
        exact s.countFailure_law _ _ _ _ _ rfl hin h
      · split at ht
        · cases ht
          exact State.judgeReply_law _ _ _ _ hin ((Sustains.of_same rfl rfl rfl).law h)
        · cases ht

/-! ### The swap (R155) -/

theorem State.swapGrid_sustains (first : Bool) (old new : Tables) :
    Sustains s (s.swapGrid first old new) := by
  refine (s.swapGrid_frame first old new).sustains_of_modules ?_
  unfold State.swapGrid
  split
  · rfl
  · split <;> rfl

theorem State.swapMode_sustains (first : Bool) : Sustains s (s.swapMode first) := by
  unfold State.swapMode
  split
  · exact .of_same rfl rfl rfl
  · exact .refl s

/-- What the swap does after the comparison of the banks takes no delivery away. -/
theorem State.swapRecords_swap_sustains :
    Sustains (s.swapBanks.swapRecords s.ts.active s.ts.shadow) s.swap :=
  (State.swapGrid_sustains _ _ _ _).trans <|
    (State.swapSilence_frame _ _ _ _).sustains.trans <|
      (State.startRefresh_frame _).sustains.trans <|
        State.swapMode_sustains _ _

theorem swapTrace_points (old new : Tables) (pe : PointEvaluator) :
    (swapTrace old new pe).points = pe.points := by
  unfold swapTrace
  split
  · rfl
  · split
    · rfl
    · split <;> rfl

theorem State.moduleRec_swapRecords (old new : Tables) (m : ModuleNo) :
    (s.swapRecords old new).moduleRec m = swapModule old new m (s.moduleRec m) :=
  Table.get_tabulate ModuleRec.init (fun m => swapModule old new m (s.moduleRec m)) m

theorem State.pointRec_swapRecords (old new : Tables) (p : PointNo) :
    (s.swapRecords old new).pointRec p = swapPoint old new p (s.pointRec p) := by
  have init (q : PointNo) : swapPoint old new q .init = .init := by
    unfold swapPoint
    split <;> rfl
  have hp : (s.swapRecords old new).pe.points =
      Table.update .init (swapPoint old new) s.pe.points := swapTrace_points old new _
  rw [State.pointRec, hp, Table.get_update _ _ init]
  rfl

/-- A point kept has the entry it had, on modules whose records are kept (R18, R86). -/
theorem State.pointDeliverable_swapRecords {old new : Tables} {p : PointNo}
    (h : pointKept old new p = true) :
    new.pointEntry p = old.pointEntry p ∧
      (s.swapRecords old new).pointDeliverable (old.pointEntry p) =
        s.pointDeliverable (old.pointEntry p) := by
  simp only [pointKept, Bool.and_eq_true, decide_eq_true_eq] at h
  obtain ⟨he, hc⟩ := h
  rw [← he, List.all_eq_true] at hc
  refine ⟨he.symm, ?_⟩
  rw [Bool.eq_iff_iff, State.pointDeliverable_iff, State.pointDeliverable_iff]
  refine forall₂_congr fun c hmem => ?_
  rw [State.moduleRec_swapRecords, swapModule, if_pos (hc c hmem)]

/-- The swap keeps the law: a point kept is as it was, and every other one is re-initialised (R17,
R18). -/
theorem State.swap_law (h : s.DeliverabilityLaw) : s.swap.DeliverabilityLaw := by
  refine s.swapRecords_swap_sustains.law fun p hd hn => ?_
  rw [State.pointRec_swapRecords, swapPoint]
  split
  · next hk =>
    obtain ⟨he, hdel⟩ := s.swapBanks.pointDeliverable_swapRecords hk
    have hd' : (s.ts.shadow.pointEntry p).isDefined := hd
    have hn' : (s.swapBanks.swapRecords s.ts.active s.ts.shadow).pointDeliverable
      (s.ts.shadow.pointEntry p) = false := hn
    rw [he] at hd' hn'
    exact h p hd' (hdel ▸ hn')
  · exact ⟨.init, rfl⟩

theorem State.takeCommit_law (request : Byte) (h : s.DeliverabilityLaw) :
    (s.takeCommit request).DeliverabilityLaw := by
  unfold State.takeCommit
  split
  · exact (Sustains.of_same rfl rfl rfl).law h
  · split
    · exact (Sustains.of_same rfl rfl rfl).law h
    · split
      · exact (Sustains.of_same rfl rfl rfl).law h
      · split
        · exact s.swap_law h
        · exact (Sustains.of_same rfl rfl rfl).law h

/-! ### Events, commands and steps -/

/-- With an empty ACTIVE bank no point is defined, and the law holds. -/
theorem State.law_of_empty (h : s.ts.active = .empty) : s.DeliverabilityLaw := by
  intro p hd
  rw [h] at hd
  exact absurd hd (by simp [Tables.empty, Tables.pointEntry, PointEntry.isDefined, PointEntry.empty])

theorem State.takeReset_law (key : KeyLevel) : (s.takeReset key).DeliverabilityLaw :=
  State.law_of_empty _ rfl

variable {s}

/-- An event keeps the law if its own effect does. -/
theorem State.occur_law {event : State → Option State} {t : State} (h : s.DeliverabilityLaw)
    (ht : s.occur event = .next t) (he : ∀ u, event s = some u → u.DeliverabilityLaw) :
    t.DeliverabilityLaw := by
  rcases s.occur_cases ht with rfl | ⟨u, -, hu, rfl⟩
  · exact h
  · exact u.transmitNext_sustains.law (he u hu)

/-- An event whose own effect takes no delivery away keeps the law. -/
theorem State.occur_sustains_law {event : State → Option State} {t : State}
    (h : s.DeliverabilityLaw) (ht : s.occur event = .next t)
    (he : ∀ u, event s = some u → Sustains s u) : t.DeliverabilityLaw :=
  State.occur_law h ht fun u hu => (he u hu).law h

/-- The dispatch of a telegram keeps the law if its owner does. -/
theorem State.dispatch_law {k : DeskKind} {takes : List Byte → Bool}
    {owner : RxTelegram → State → State} {t : State} (h : s.DeliverabilityLaw)
    (ht : s.occur (State.dispatch k takes owner) = .next t)
    (ho : ∀ x u, State.DeliverabilityLaw u → (owner x u).DeliverabilityLaw) :
    t.DeliverabilityLaw := by
  refine State.occur_law h ht fun u hu => ?_
  have hb : s.freeBuffer.DeliverabilityLaw := (Sustains.of_same rfl rfl rfl).law h
  obtain ⟨x, -, -, -, ⟨-, rfl⟩ | ⟨-, -, rfl⟩ | ⟨-, -, rfl⟩⟩ := s.dispatch_cases hu
  · exact (Sustains.of_same rfl rfl rfl).law hb
  · exact (Sustains.of_same rfl rfl rfl).law hb
  · exact ho x _ hb

/-- The dispatch of a telegram whose owner takes no delivery away keeps the law. -/
theorem State.dispatch_sustains_law {k : DeskKind} {takes : List Byte → Bool}
    {owner : RxTelegram → State → State} {t : State} (h : s.DeliverabilityLaw)
    (ht : s.occur (State.dispatch k takes owner) = .next t)
    (ho : ∀ x u, Sustains u (owner x u)) : t.DeliverabilityLaw :=
  State.dispatch_law h ht fun x u => (ho x u).law

/-- An event that takes place under a condition keeps the law if its effect takes no delivery away. -/
theorem State.occur_if_law {c : Prop} [Decidable c] {v t : State} (h : s.DeliverabilityLaw)
    (ht : (s.occur fun _ => if c then some v else none) = .next t) (hv : Sustains s v) :
    t.DeliverabilityLaw := by
  refine State.occur_sustains_law h ht fun u hu => ?_
  split at hu
  · cases hu; exact hv
  · cases hu

theorem execReceiveTelegram_law {bytes : List Byte} {t : State} (h : s.DeliverabilityLaw)
    (ht : execReceiveTelegram bytes s = .next t) : t.DeliverabilityLaw := by
  refine State.occur_if_law h ht ?_
  split <;> exact .of_same rfl rfl rfl

theorem execRestartReset_law {key : KeyLevel} {t : State} (h : s.DeliverabilityLaw)
    (ht : execRestartReset key s = .next t) : t.DeliverabilityLaw := by
  refine State.occur_law h ht fun u hu => ?_
  split at hu
  · cases hu; exact s.takeReset_law key
  · cases hu

theorem execDeskSilenceExpiry_law {t : State} (h : s.DeliverabilityLaw)
    (ht : execDeskSilenceExpiry s = .next t) : t.DeliverabilityLaw := by
  refine State.occur_if_law h ht (Sustains.trans ?_
    (State.csuSilence_frame _ _).sustains)
  exact .of_same rfl rfl rfl

theorem execKeyWithdrawal_law {stood : Nat} {t : State} (h : s.DeliverabilityLaw)
    (ht : execKeyWithdrawal stood s = .next t) : t.DeliverabilityLaw := by
  refine State.occur_if_law h ht ?_
  have key : Sustains s (s.setKey .withdrawn) := .of_same rfl rfl rfl
  split
  · exact key.trans (State.leaveMaintenance_sustains _)
  · exact key

theorem execUnknownKind_law {t : State} (h : s.DeliverabilityLaw)
    (ht : execUnknownKind s = .next t) : t.DeliverabilityLaw := by
  refine State.occur_sustains_law h ht fun u hu => ?_
  split at hu
  · cases hu
  · split at hu
    · cases hu; exact .of_same rfl rfl rfl
    · cases hu

theorem execPulseEnd_law {slot : SlotNo} {t : State} (h : s.DeliverabilityLaw)
    (ht : execPulseEnd slot s = .next t) : t.DeliverabilityLaw := by
  refine State.occur_sustains_law h ht fun u hu => ?_
  obtain ⟨⟨sl, due⟩, -, rfl⟩ := Option.map_eq_some_iff.1 hu
  exact (s.endPulse_frame slot sl due).sustains

theorem execProvingDeadline_law {slot : SlotNo} {t : State} (h : s.DeliverabilityLaw)
    (ht : execProvingDeadline slot s = .next t) : t.DeliverabilityLaw := by
  refine State.occur_sustains_law h ht fun u hu => ?_
  obtain ⟨⟨sl, due⟩, -, rfl⟩ := Option.map_eq_some_iff.1 hu
  exact (s.endProving_frame slot sl due).sustains

theorem execIdleIntervalExpiry_law {t : State} (h : s.DeliverabilityLaw)
    (ht : execIdleIntervalExpiry s = .next t) : t.DeliverabilityLaw := by
  refine State.occur_sustains_law h ht fun u hu => ?_
  unfold State.idleWork at hu
  split at hu
  · split at hu
    · cases hu; exact .refl s
    · split at hu
      · cases hu
      · split at hu
        · cases hu; exact .refl s
        · cases hu; exact .of_same rfl rfl rfl
  · cases hu

theorem execCycleStart_law {t : State} (h : s.DeliverabilityLaw) (ht : execCycleStart s = .next t) :
    t.DeliverabilityLaw := by
  refine State.occur_sustains_law h ht fun u hu => ?_
  split at hu
  · split at hu
    · cases hu; exact s.startCycle_sustains false
    · split at hu
      · cases hu
      · cases hu; exact .of_same rfl rfl rfl
  · cases hu

theorem execCommitSwap_law {t : State} (h : s.DeliverabilityLaw) (ht : execCommitSwap s = .next t) :
    t.DeliverabilityLaw := by
  refine State.occur_law h ht fun u hu => ?_
  split at hu
  · cases hu
  · cases hu; exact (State.endHold_sustains _).law (s.swap_law h)

theorem execInputPoll_law {t : State} (h : s.DeliverabilityLaw) (ht : execInputPoll s = .next t) :
    t.DeliverabilityLaw := by
  refine State.occur_sustains_law h ht fun u hu => ?_
  split at hu
  · cases hu
  · cases hu; exact .of_same rfl rfl rfl

theorem execDrivePoll_law {t : State} (h : s.DeliverabilityLaw) (ht : execDrivePoll s = .next t) :
    t.DeliverabilityLaw := by
  refine State.occur_sustains_law h ht fun u hu => ?_
  split at hu
  · cases hu
  · next m _ _ =>
    cases hu
    refine (s.recordSentCodes_frame m).sustains.trans ?_
    exact .of_same rfl rfl rfl

theorem execReplyFirstByte_law {byte : FirstByte} {t : State} (h : s.DeliverabilityLaw)
    (ht : execReplyFirstByte byte s = .next t) : t.DeliverabilityLaw := by
  refine State.occur_sustains_law h ht fun u hu => ?_
  split at hu
  · cases hu
  · split at hu
    · cases hu; exact .of_same rfl rfl rfl
    · cases hu

theorem execReplyTimeout_law {clock : Micros} {t : State} (hin : s.ts.active.PointsOnInputs)
    (h : s.DeliverabilityLaw) (ht : execReplyTimeout clock s = .next t) : t.DeliverabilityLaw := by
  refine State.occur_law h ht fun u hu => ?_
  split at hu
  · cases hu
  · split at hu
    · cases hu; exact s.countFailure_law _ _ _ _ _ rfl hin h
    · cases hu

theorem execReplySilence_law {clock : Micros} {t : State} (hin : s.ts.active.PointsOnInputs)
    (h : s.DeliverabilityLaw) (ht : execReplySilence clock s = .next t) : t.DeliverabilityLaw := by
  refine State.occur_law h ht fun u hu => ?_
  split at hu
  · cases hu
  · split at hu
    · cases hu; exact s.countFailure_law _ _ _ _ _ rfl hin h
    · cases hu

theorem execInputReply_law {reply : Reply} {t : State} (hin : s.ts.active.PointsOnInputs)
    (h : s.DeliverabilityLaw) (ht : execInputReply reply s = .next t) : t.DeliverabilityLaw :=
  State.occur_law h ht fun _ => s.takeReply_law .input reply hin h

theorem execDriveReply_law {reply : Reply} {t : State} (hin : s.ts.active.PointsOnInputs)
    (h : s.DeliverabilityLaw) (ht : execDriveReply reply s = .next t) : t.DeliverabilityLaw :=
  State.occur_law h ht fun _ => s.takeReply_law .output reply hin h

theorem execImageArrival_law {t : State} (h : s.DeliverabilityLaw)
    (ht : execImageArrival s = .next t) : t.DeliverabilityLaw := by
  refine State.occur_sustains_law h ht fun u hu => ?_
  split at hu
  · cases hu
  · split at hu
    · cases hu
    · cases hu; exact s.takeArrival_sustains _ _

/-- Every command keeps the law of deliverability, in a bank whose contacts lie on INPUT modules. -/
theorem exec_law (c : Instr) {t : State} (hin : s.ts.active.PointsOnInputs)
    (h : s.DeliverabilityLaw) (ht : exec c s = .next t) : t.DeliverabilityLaw := by
  cases c with
  | powerOnReset key => cases ht; exact s.takeReset_law key
  | receiveTelegram bytes => exact execReceiveTelegram_law h ht
  | receiveTruncated gap => exact State.occur_if_law h ht (.of_same rfl rfl rfl)
  | unknownKind => exact execUnknownKind_law h ht
  | control =>
    exact State.dispatch_sustains_law h ht fun _ u =>
      (u.takeControl_frame _).sustains
  | cancel => exact State.dispatch_sustains_law h ht fun _ u => u.takeCancel_sustains _ _
  | interrogate => exact State.dispatch_sustains_law h ht fun _ _ => .of_same rfl rfl rfl
  | timeSet => exact State.dispatch_sustains_law h ht fun _ _ => .of_same rfl rfl rfl
  | modeRequestOperate =>
    exact State.dispatch_sustains_law h ht fun _ u => u.takeModeRequest_sustains _ _
  | modeRequestMaintenance =>
    exact State.dispatch_sustains_law h ht fun _ u => u.takeModeRequest_sustains _ _
  | modeRequestNeither =>
    exact State.dispatch_sustains_law h ht fun _ u => u.takeModeRequest_sustains _ _
  | tableWrite => exact State.dispatch_sustains_law h ht fun _ u => u.takeTableWrite_sustains _ _
  | tableRead => exact State.dispatch_sustains_law h ht fun _ u => u.takeTableRead_sustains _ _
  | tableCommit => exact State.dispatch_law h ht fun _ u => u.takeCommit_law _
  | substitute => exact State.dispatch_sustains_law h ht fun _ u => u.takeSubstitute_sustains _ _ _
  | release => exact State.dispatch_sustains_law h ht fun _ u => u.takeRelease_sustains _ _
  | traceSelectPoint =>
    exact State.dispatch_sustains_law h ht fun _ u => u.takeTraceSelect_sustains _ _
  | traceSelectNone => exact State.dispatch_sustains_law h ht fun _ _ => .of_same rfl rfl rfl
  | counterClear =>
    exact State.dispatch_sustains_law h ht fun _ u =>
      u.clearCounters_sustains.trans (.of_same rfl rfl rfl)
  | restart => exact State.dispatch_sustains_law h ht fun _ _ => .of_same rfl rfl rfl
  | restartReset key => exact execRestartReset_law h ht
  | diagReadPoint =>
    exact State.dispatch_sustains_law h ht fun x u => u.takeDiagRead_sustains x _ _ _
  | diagReadGroup =>
    exact State.dispatch_sustains_law h ht fun x u => u.takeDiagRead_sustains x _ _ _
  | diagReadModule =>
    exact State.dispatch_sustains_law h ht fun x u => u.takeDiagRead_sustains x _ _ _
  | diagReadSlot =>
    exact State.dispatch_sustains_law h ht fun x u => u.takeDiagRead_sustains x _ _ _
  | diagReadPart =>
    refine State.dispatch_sustains_law h ht fun x u => ?_
    split <;> exact .of_same rfl rfl rfl
  | transmitEnd => exact State.occur_if_law h ht (.of_same rfl rfl rfl)
  | idleIntervalExpiry => exact execIdleIntervalExpiry_law h ht
  | deskSilenceExpiry => exact execDeskSilenceExpiry_law h ht
  | keyWithdrawal stood => exact execKeyWithdrawal_law h ht
  | keyPresented stood => exact State.occur_if_law h ht (.of_same rfl rfl rfl)
  | cycleStart => exact execCycleStart_law h ht
  | commitSwap => exact execCommitSwap_law h ht
  | inputPoll => exact execInputPoll_law h ht
  | drivePoll => exact execDrivePoll_law h ht
  | replyTimeout clock => exact execReplyTimeout_law hin h ht
  | replySilence clock => exact execReplySilence_law hin h ht
  | inputReply reply => exact execInputReply_law hin h ht
  | driveReply reply => exact execDriveReply_law hin h ht
  | imageArrival => exact execImageArrival_law h ht
  | pulseEnd slot => exact execPulseEnd_law h ht
  | provingDeadline slot => exact execProvingDeadline_law h ht
  | receiveOverlong length => exact State.occur_if_law h ht (.of_same rfl rfl rfl)
  | syncByte => exact State.occur_if_law h ht (.of_same rfl rfl rfl)
  | replyFirstByte byte => exact execReplyFirstByte_law h ht
  | resetAsserted => cases ht; exact (Sustains.of_same rfl rfl rfl).law h

/-- What the part finishes on an empty queue takes no delivery away (R58, R146). -/
theorem State.unfinished_sustains {t : State} (h : s.unfinished = some t) : Sustains s t := by
  unfold State.unfinished at h
  split at h
  · cases h
  · split at h
    · cases h
      exact s.ageFinish_sustains.trans (State.transmitNext_sustains _)
    · split at h
      · cases h
        refine Sustains.trans ?_ (State.transmitNext_sustains _)
        exact .of_same rfl rfl rfl
      · cases h

variable (s) in
theorem State.tick_sustains : Sustains s s.tick := by
  unfold State.tick
  split
  · exact .refl s
  · exact .of_same rfl rfl rfl

/-- Settles O58: each step is a command, what is left unfinished, or a millisecond. -/
theorem everyStepKeepsTheDeliverabilityLaw : Obligations.EveryStepKeepsTheDeliverabilityLaw := by
  intro s t hm h ht
  have hin := hm.pointsOnInputs
  unfold step at ht
  split at ht
  · next c rest _ =>
    exact exec_law c (s := { s with pending := rest }) hin h ht
  · split at ht
    · next u hu => cases ht; exact (State.unfinished_sustains hu).law h
    · split at ht
      · next c _ => exact exec_law c hin h ht
      · cases ht; exact s.tick_sustains.law h

/-! ### The state after reset -/

theorem Tables.empty_canonical : Tables.empty.canonical := by
  simp [Tables.canonical, Tables.empty]

theorem State.reset_canonical : State.reset.Canonical where
  active := Tables.empty_canonical
  shadow := Tables.empty_canonical
  modules := by decide
  points := by decide
  groups := by decide
  channels := by decide
  banks := by intro m bank h; cases h
  slots := by decide

theorem State.reset_withinCapacity : State.reset.WithinCapacity where
  queue := by decide
  banks := by decide
  buffers := by decide
  answers := by decide
  indication := by intro h rs hi; cases hi
  arrivals := by decide
  activeSystem := by decide
  shadowSystem := by decide

theorem State.reset_countersBounded : State.reset.CountersBounded where
  modules := by
    intro m
    show ModuleRec.init.withinLimits
    simp [ModuleRec.withinLimits, ModuleRec.init]
  cycleOverruns := by decide
  queueOverflows := by decide
  deskCrcErrors := by decide
  deskRxOverruns := by decide
  deskSilenceEvents := by decide

theorem State.reset_modeSound : State.reset.ModeSound where
  pendingInMaintenance := by decide
  pendingValidated := by intro h; cases h
  pendingWithoutSlots := by intro _ _; rfl
  maintenanceWithKey := by decide
  configuredValidated h := absurd rfl h
  unconfiguredEmpty _ := rfl
  unconfiguredIdle _ := ⟨rfl, rfl, rfl⟩
  unconfiguredUndriven _ _ := rfl
  unconfiguredWithoutSlots _ _ := rfl

theorem State.reset_slotsSound : State.reset.SlotsSound where
  oneOwner := by intro j k a b ha; cases ha
  phases := by intro k sl h; cases h

theorem State.reset_measurementsBounded : State.reset.MeasurementsBounded where
  times := by intro p; refine ⟨?_, ?_, ?_, ?_⟩ <;> intro x h <;> cases h
  counts := by intro p _; exact Nat.zero_le _

/-- Settles O60: every table is empty, every counter 0 and every holding place free after reset. -/
theorem resetMeetsEveryInvariant : Obligations.ResetMeetsEveryInvariant :=
  ⟨State.reset_canonical, State.reset_withinCapacity, State.reset_countersBounded,
    State.reset_modeSound, State.reset_slotsSound, State.law_of_empty _ rfl,
    State.reset_measurementsBounded, rfl, rfl⟩

end Sys2Proof.Machine

/-! PROOFS. Every step keeps the measurements bounded (R45, R47). The law is a bound on each point's record
under the point's entry (`PointEntry.Bounds`). Chapters 2 and 3 keep it at one point
(`State.evaluate_bounds`); a swap re-initialises every point whose entry it changes
(`State.MeasurementsBounded.swap`); everything else leaves ACTIVE and the measurements alone. -/

namespace Sys2Proof.Machine

/-! ### The law at one point -/

theorem measured_none : measured none := nofun

theorem measured_some {x : Nat} (h : x ≤ 65535) : measured (some x) := fun _ e => by cases e; exact h

/-- A measurement limited to 65,535 ms is a measured time (R30, R42, R47). -/
theorem measured_min (x : Nat) : measured (some (min x Config.measureLimit)) :=
  measured_some (min_le_right x Config.measureLimit)

/-- The measurements of a point's record lie within their bounds under the point's entry: its measured
times (R47), and a FLASHER point's integration count (R45). -/
structure PointEntry.Bounds (e : PointEntry) (r : PointRecord) : Prop where
  pendingTransfer : measured r.pendingTransfer
  lastTransfer : measured r.lastTransfer
  lastOnHalf : measured r.lastOnHalf
  lastOffHalf : measured r.lastOffHalf
  count : e.cls = .flasher → r.integration ≤ e.target

theorem State.measurementsBounded_iff (s : State) :
    s.MeasurementsBounded ↔ ∀ p, (s.ts.active.pointEntry p).Bounds (s.pointRec p) := by
  constructor
  · intro h p
    obtain ⟨hp, hl, hon, hoff⟩ := h.times p
    exact ⟨hp, hl, hon, hoff, h.counts p⟩
  · intro h
    refine ⟨fun p => ?_, fun p => (h p).count⟩
    exact ⟨(h p).pendingTransfer, (h p).lastTransfer, (h p).lastOnHalf, (h p).lastOffHalf⟩

theorem PointEntry.bounds_init (e : PointEntry) : e.Bounds .init :=
  ⟨measured_none, measured_none, measured_none, measured_none, fun _ => Nat.zero_le _⟩

section Records

variable {e : PointEntry} {r : PointRecord}

theorem PointEntry.Bounds.cleared (h : e.Bounds r) : e.Bounds r.cleared where
  pendingTransfer := measured_none
  lastTransfer := h.lastTransfer
  lastOnHalf := measured_none
  lastOffHalf := measured_none
  count _ := Nat.zero_le _

theorem PointEntry.Bounds.loseTo (h : e.Bounds r) (cause : Cause) : e.Bounds (r.loseTo cause) :=
  { h.cleared with }

theorem PointEntry.Bounds.lostAgain (h : e.Bounds r) : e.Bounds r.lostAgain := { h with }

theorem PointEntry.Bounds.atSample (h : e.Bounds r) : e.Bounds r.atSample := by
  unfold PointRecord.atSample
  split
  · exact h.cleared
  · exact h

/-! ### SINGLE and PAIR points (R25 to R33) -/

theorem PointEntry.Bounds.singleUpdate (h : e.Bounds r) (target : StateValue) (t : Time) :
    e.Bounds (r.singleUpdate target t) := { h with }

theorem PointEntry.Bounds.evalSingle (h : e.Bounds r) (level : Bool) (t : Time) :
    e.Bounds (e.evalSingle r level t) := by
  have hu := h.singleUpdate (e.singleTarget level).1 t
  unfold PointEntry.evalSingle
  dsimp only
  split
  · exact hu
  · split
    · exact { hu with }
    · exact hu

/-- A pending transfer formed by a new candidate is measured (R30). -/
theorem measured_newPending (evaluated : PointState) (target : StateValue) (openSince : Option Time)
    (t : Time) : measured (newPending evaluated target openSince t) := by
  unfold newPending
  split
  · split
    · exact measured_min _
    · exact measured_some (Nat.zero_le _)
  · exact measured_none

theorem PointEntry.Bounds.pairUpdate (h : e.Bounds r) (target : StateValue) (t : Time) :
    e.Bounds (r.pairUpdate target t) := by
  unfold PointRecord.pairUpdate
  split
  · exact { h with pendingTransfer := measured_none }
  · split
    · exact h
    · exact { h with pendingTransfer := measured_newPending _ _ _ _ }

/-- An acceptance stores the pending transfer, which was measured (R32). -/
theorem PointEntry.Bounds.pairAccept (h : e.Bounds r) (target : StateValue) :
    e.Bounds (e.pairAccept r target) := by
  unfold PointEntry.pairAccept
  dsimp only
  split
  · exact { h with }
  · next x hx =>
    exact { h with pendingTransfer := measured_none, lastTransfer := hx ▸ h.pendingTransfer }

theorem PointEntry.Bounds.evalPair (h : e.Bounds r) (front back : Bool) (t : Time) :
    e.Bounds (e.evalPair r front back t).1 := by
  have hu := h.pairUpdate (e.pairTarget front back).1 t
  unfold PointEntry.evalPair
  dsimp only
  split
  · exact hu
  · split
    · exact hu.pairAccept _
    · exact hu

/-! ### FLASHER points (R37 to R45) -/

theorem PointEntry.Bounds.flashFilterStep (h : e.Bounds r) (level : Bool) (t : Time) :
    e.Bounds (e.flashFilterStep r level t).1 := by
  unfold PointEntry.flashFilterStep
  split
  · exact { h with }
  · split <;> exact { h with }

theorem PointEntry.Bounds.quietCheck (h : e.Bounds r) (t : Time) : e.Bounds (e.quietCheck r t) := by
  unfold PointEntry.quietCheck
  split
  · split
    · exact { h with count := fun _ => Nat.zero_le _ }
    · exact h
  · exact h

theorem PointEntry.Bounds.storeHalf (h : e.Bounds r) (left : Bool) {x : Nat}
    (hx : measured (some x)) : e.Bounds (r.storeHalf left x) := by
  unfold PointRecord.storeHalf
  split
  · exact { h with lastOnHalf := hx }
  · exact { h with lastOffHalf := hx }

/-- A half that counts raises the integration count no further than the target; any other sets it to 0
(R43 to R45). -/
theorem PointEntry.Bounds.classifyHalf (h : e.Bounds r) (left : Bool) {x : Nat}
    (hx : measured (some x)) : e.Bounds (e.classifyHalf r left x) := by
  have hs := h.storeHalf left hx
  unfold PointEntry.classifyHalf
  dsimp only
  split
  · exact { hs with count := fun _ => Nat.zero_le _ }
  · split
    · exact { hs with count := fun _ => Nat.zero_le _ }
    · exact { hs with count := fun _ => min_le_right _ _ }

theorem PointEntry.Bounds.evalFlasher (h : e.Bounds r) (level : Bool) (t : Time) :
    e.Bounds (e.evalFlasher r level t) := by
  have hu := h.flashFilterStep level t
  unfold PointEntry.evalFlasher
  dsimp only
  split
  · split
    · exact { hu.classifyHalf _ (measured_min _) with }
    · exact { hu with }
  · exact hu.quietCheck t

/-- The evaluation of a sample keeps a record within its bounds, whatever the class of the point (R9). -/
theorem State.evaluate_bounds {s : State} {arr : BankImage} {v : Evaluation} (h : e.Bounds r)
    (hv : s.evaluate arr e r = some v) : e.Bounds v.record := by
  have ha := h.atSample
  unfold State.evaluate at hv
  cases hc : e.cls with
  | none => simp only [hc, reduceCtorEq] at hv
  | single =>
    simp only [hc] at hv
    split at hv
    · cases hv
    · cases hv
      dsimp only
      split
      · exact ha.evalSingle _ _
      · exact ha.singleUpdate _ _
  | flasher =>
    simp only [hc] at hv
    split at hv
    · cases hv
    · cases hv
      exact ha.evalFlasher _ _
  | pair =>
    simp only [hc] at hv
    split at hv
    · cases hv
      dsimp only
      split
      · exact ha.evalPair _ _ _
      · exact ha.pairUpdate _ _
    · cases hv

end Records

/-! ### What keeps the measurements bounded -/

section Keeps

variable {s t : State}

/-- What changes neither ACTIVE nor a point record keeps the measurements bounded. -/
theorem State.MeasurementsBounded.of_same (h : s.MeasurementsBounded)
    (ha : t.ts.active = s.ts.active) (hp : ∀ p, t.pointRec p = s.pointRec p) :
    t.MeasurementsBounded := by
  rw [State.measurementsBounded_iff] at h ⊢
  intro p
  rw [ha, hp p]
  exact h p

/-- What touches neither the tables nor the points keeps the measurements bounded. -/
theorem State.MeasurementsBounded.frame {l : List Block} (h : s.MeasurementsBounded)
    (hf : Frame l s t) (hts : .ts ∉ l := by decide) (hpe : .pe ∉ l := by decide) :
    t.MeasurementsBounded :=
  h.of_same (congrArg TableStore.active (hf.blocks .ts hts)) (hf.pointRec_eq hpe)

theorem State.MeasurementsBounded.foldl {α : Type} {f : State → α → State}
    (hf : ∀ s a, State.MeasurementsBounded s → (f s a).MeasurementsBounded) (l : List α)
    (h : s.MeasurementsBounded) : (l.foldl f s).MeasurementsBounded := by
  induction l generalizing s with
  | nil => exact h
  | cons a l ih => exact ih (hf s a h)

/-! ### Points: the record handed on, and what the PE does to it -/

theorem State.MeasurementsBounded.setPointRec (h : s.MeasurementsBounded) {p : PointNo}
    {r : PointRecord} (hr : (s.ts.active.pointEntry p).Bounds r) :
    (s.setPointRec p r).MeasurementsBounded := by
  rw [State.measurementsBounded_iff] at h ⊢
  intro q
  rw [State.setPointRec_ts, State.pointRec_setPointRec]
  split
  · next hq => exact hq ▸ hr
  · exact h q

theorem State.MeasurementsBounded.handOn (h : s.MeasurementsBounded) {p : PointNo}
    {new : PointRecord} (hr : (s.ts.active.pointEntry p).Bounds new) (time : Time)
    (extra : PointExtra) : (s.handOn p new time extra).MeasurementsBounded := by
  have stored := (h.setPointRec hr).frame (State.handPoint_frame _ p (s.pointRec p) new time extra)
  unfold State.handOn
  dsimp only
  split
  · exact stored.frame (State.csuNotice_frame _ _ _)
  · exact stored

theorem State.MeasurementsBounded.losePoint (h : s.MeasurementsBounded) (p : PointNo) (time : Time) :
    (s.losePoint p time).MeasurementsBounded := by
  have hp := s.measurementsBounded_iff.1 h p
  unfold State.losePoint
  dsimp only
  split
  · exact h.setPointRec hp.lostAgain
  · exact h.handOn (hp.loseTo _) _ _

theorem State.MeasurementsBounded.traceSample (h : s.MeasurementsBounded) (p : PointNo)
    (levels : TraceLevels) (time : Time) : (s.traceSample p levels time).MeasurementsBounded :=
  h.of_same
    (congrArg TableStore.active ((s.traceSample_frame p levels time).blocks .ts (by decide)))
    fun q => s.traceSample_pointRec p q levels time

theorem State.MeasurementsBounded.arriveAt (h : s.MeasurementsBounded) (arr : BankImage)
    (p : PointNo) : (s.arriveAt arr p).MeasurementsBounded := by
  have hp := s.measurementsBounded_iff.1 h p
  unfold State.arriveAt
  dsimp only
  split
  · split
    · exact h
    · next hv => exact (h.handOn (State.evaluate_bounds hp hv) _ _).traceSample _ _ _
  · exact h.losePoint _ _

theorem State.MeasurementsBounded.takeArrival (h : s.MeasurementsBounded) (arr : BankImage)
    (rest : List BankImage) : (s.takeArrival arr rest).MeasurementsBounded := by
  have evaluated := h.foldl (fun _ p hu => hu.arriveAt arr p) (s.pointsOn arr.mod)
  refine State.MeasurementsBounded.frame ?_ (State.ageArrival_frame _ _ _)
  exact evaluated.of_same rfl fun _ => rfl

theorem noticePoint_bounded {acc : State × List PointNo} (h : acc.1.MeasurementsBounded) (time : Time)
    (p : PointNo) : (noticePoint time acc p).1.MeasurementsBounded := by
  unfold noticePoint
  dsimp only
  split
  · exact h
  · exact h.losePoint p time

theorem noticePoints_bounded {acc : State × List PointNo} (h : acc.1.MeasurementsBounded)
    (time : Time) (l : List PointNo) : (l.foldl (noticePoint time) acc).1.MeasurementsBounded := by
  induction l generalizing acc with
  | nil => exact h
  | cons p l ih => exact ih (noticePoint_bounded h time p)

theorem State.MeasurementsBounded.moduleNotice (h : s.MeasurementsBounded) (m : ModuleNo)
    (time : Time) : (s.moduleNotice m time).MeasurementsBounded :=
  (noticePoints_bounded (acc := (s, [])) h time (s.pointsOn m)).frame (State.ageNotice_frame _ _ _)

/-- A substitute value is no measurement (R13). -/
theorem State.MeasurementsBounded.setSubstitute (h : s.MeasurementsBounded) (p : PointNo)
    (v : Option StateValue) (extra : PointExtra) :
    (s.setSubstitute p v extra).MeasurementsBounded := by
  have bounds : (s.ts.active.pointEntry p).Bounds { s.pointRec p with substitute := v } :=
    { s.measurementsBounded_iff.1 h p with }
  exact (h.setPointRec bounds).frame (State.handPoint_frame _ _ _ _ _ _)

theorem State.MeasurementsBounded.imposeSubstitute (h : s.MeasurementsBounded) (p : PointNo)
    (v : StateValue) : (s.imposeSubstitute p v).MeasurementsBounded := by
  have imposed := h.setSubstitute p (some v) .none
  unfold State.imposeSubstitute
  dsimp only
  split
  · exact imposed.frame (State.ageChange_frame _ _ _)
  · exact imposed

theorem State.MeasurementsBounded.removeSubstitute (h : s.MeasurementsBounded) (p : PointNo) :
    (s.removeSubstitute p).MeasurementsBounded := by
  have removed (extra : PointExtra) := h.setSubstitute p none extra
  unfold State.removeSubstitute
  dsimp only
  split
  · exact (removed _).frame (State.ageChange_frame _ _ _)
  · exact removed _

/-! ### The end of a scan (R78 to R84) -/

theorem State.MeasurementsBounded.stateNotices (h : s.MeasurementsBounded) (m : ModuleNo)
    (new : ModuleState) (time : Time) : (s.stateNotices m new time).MeasurementsBounded := by
  unfold State.stateNotices
  split
  · exact h.moduleNotice m time
  · split
    · exact (h.frame (s.oduModuleLost_frame m)).frame (State.csuModuleLost_frame _ _ _)
    · exact h
  · exact h

/-- A module's new record with its MODULE record (R84 step 1). -/
theorem State.MeasurementsBounded.storeModule (h : s.MeasurementsBounded) (m : ModuleNo)
    (r : ModuleRec) (old new : ModuleState) (time : Time) :
    ((s.setModuleRec m r).moduleRecord m old new time).MeasurementsBounded :=
  (h.frame (s.setModuleRec_frame m r)).frame (State.moduleRecord_frame _ _ _ _ _)

theorem State.MeasurementsBounded.missScan (h : s.MeasurementsBounded) (m : ModuleNo) (time : Time) :
    (s.missScan m time).MeasurementsBounded := by
  unfold State.missScan
  dsimp only
  refine State.MeasurementsBounded.frame ?_ (State.endScan_frame _ m)
  split
  · exact (h.storeModule _ _ _ _ _).stateNotices _ _ _
  · exact h.storeModule _ _ _ _ _

theorem State.MeasurementsBounded.acceptInput (h : s.MeasurementsBounded) (m : ModuleNo)
    (levels : BitVec 64) (wetting : Bool) (time : Time) :
    (s.acceptInput m levels wetting time).MeasurementsBounded := by
  have notice (c : Prop) [Decidable c] {u : State} (hu : u.MeasurementsBounded) :
      (if c then u.moduleNotice m time else u).MeasurementsBounded := by
    split
    · exact hu.moduleNotice m time
    · exact hu
  unfold State.acceptInput
  dsimp only
  refine State.MeasurementsBounded.frame ?_ (State.endScan_frame _ m)
  split
  · exact (notice _ (h.storeModule _ _ _ _ _)).frame (State.placeImage_frame _ _)
  · exact notice _ (h.storeModule _ _ _ _ _)

theorem State.MeasurementsBounded.acceptDrive (h : s.MeasurementsBounded) (m : ModuleNo)
    (levels : BitVec 32) (time : Time) : (s.acceptDrive m levels time).MeasurementsBounded := by
  unfold State.acceptDrive
  dsimp only
  refine State.MeasurementsBounded.frame ?_ (State.endScan_frame _ m)
  refine State.MeasurementsBounded.frame ?_ (State.oduReadback_frame _ m levels time)
  split
  · exact (h.storeModule _ _ _ _ _).stateNotices _ _ _
  · exact h.storeModule _ _ _ _ _

theorem State.MeasurementsBounded.judgeReply (h : s.MeasurementsBounded) (m : ModuleNo) (use : Use)
    (data : List Byte) : (s.judgeReply m use data).MeasurementsBounded := by
  unfold State.judgeReply
  dsimp only
  split
  · exact h.missScan _ _
  · split
    · exact h.acceptInput _ _ _ _
    · exact h.acceptDrive _ _ _
    · exact h

/-- A counter of the polled module raised, and the attempt failed (R76, R77). -/
theorem State.MeasurementsBounded.countFailure (h : s.MeasurementsBounded) (clock : Micros)
    (m : ModuleNo) (r : ModuleRec) (c : Cycle) (sc : Scan) (time : Time) :
    (((s.setLineClock clock).setModuleRec m r).failAttempt c sc time).MeasurementsBounded := by
  have counted := (h.frame (s.setLineClock_frame clock)).frame (State.setModuleRec_frame _ m r)
  rcases State.failAttempt_cases ((s.setLineClock clock).setModuleRec m r) c sc time with
    ⟨-, e⟩ | ⟨-, e⟩
  · rw [e]; exact counted.frame (State.setCycle_frame _ _)
  · rw [e]; exact counted.missScan _ _

theorem State.MeasurementsBounded.takeReply (h : s.MeasurementsBounded) {use : Use} {reply : Reply}
    (ht : s.takeReply use reply = some t) : t.MeasurementsBounded := by
  unfold State.takeReply at ht
  split at ht
  · cases ht
  · dsimp only at ht
    split at ht
    · cases ht
    · split at ht
      · cases ht; exact h.countFailure _ _ _ _ _ _
      · cases ht; exact h.countFailure _ _ _ _ _ _
      · split at ht
        · cases ht; exact (h.frame (s.setLineClock_frame _)).judgeReply _ _ _
        · cases ht

/-! ### The swap, the mode and the reset (R155 to R158, R140) -/

/-- A point kept has the entry it had, and every other one is re-initialised (R18). -/
theorem swapPoint_bounds {old new : Tables} {p : PointNo} {r : PointRecord}
    (h : (old.pointEntry p).Bounds r) : (new.pointEntry p).Bounds (swapPoint old new p r) := by
  unfold swapPoint
  split
  · next hk =>
    simp only [pointKept, Bool.and_eq_true, decide_eq_true_eq] at hk
    obtain ⟨he, -⟩ := hk
    exact { he ▸ h with }
  · exact PointEntry.bounds_init _

theorem State.MeasurementsBounded.swap (h : s.MeasurementsBounded) : s.swap.MeasurementsBounded := by
  have records : (s.swapBanks.swapRecords s.ts.active s.ts.shadow).MeasurementsBounded := by
    rw [State.measurementsBounded_iff] at h ⊢
    intro p
    rw [State.pointRec_swapRecords]
    exact swapPoint_bounds (h p)
  have grid := records.frame (State.swapGrid_frame _ (!s.configured) s.ts.active s.ts.shadow)
  have silence := grid.frame (State.swapSilence_frame _ (!s.configured) s.ts.active s.ts.shadow)
  have refresh := silence.frame (State.startRefresh_frame _)
  exact refresh.of_same (State.swapMode_sustains _ _).active
    ((State.swapMode_frame _ _).pointRec_eq (by decide))

theorem State.MeasurementsBounded.takeCommit (h : s.MeasurementsBounded) (request : Byte) :
    (s.takeCommit request).MeasurementsBounded := by
  unfold State.takeCommit
  split
  · exact h.frame (s.answer_frame _ _ _)
  · split
    · exact h.frame (s.answer_frame _ _ _)
    · split
      · exact h.frame (s.answer_frame _ _ _)
      · split
        · exact h.swap
        · exact h.of_same rfl fun _ => rfl

theorem State.MeasurementsBounded.leaveMaintenance (h : s.MeasurementsBounded) :
    s.leaveMaintenance.MeasurementsBounded :=
  h.of_same s.leaveMaintenance_sustains.active (s.leaveMaintenance_frame.pointRec_eq (by decide))

theorem State.MeasurementsBounded.requestMode (h : s.MeasurementsBounded) {named : Nat}
    (ht : s.requestMode named = some t) : t.MeasurementsBounded := by
  unfold State.requestMode at ht
  split at ht
  · cases ht; exact h
  · cases ht; exact h.leaveMaintenance
  · split at ht
    · cases ht; exact h.of_same rfl fun _ => rfl
    · cases ht
  · split at ht
    · cases ht; exact h
    · cases ht
  · cases ht

theorem State.MeasurementsBounded.takeReset (key : KeyLevel) : (s.takeReset key).MeasurementsBounded :=
  State.reset_measurementsBounded.of_same rfl fun _ => rfl

/-! ### Telegrams obeyed by their owners -/

theorem State.MeasurementsBounded.answer (h : s.MeasurementsBounded) (request : Byte)
    (status : AnswerStatus) (payload : List Byte := []) :
    (s.answer request status payload).MeasurementsBounded :=
  h.frame (s.answer_frame request status payload)

theorem State.MeasurementsBounded.takeCancel (h : s.MeasurementsBounded) (request : Byte)
    (c : ControlNo) : (s.takeCancel request c).MeasurementsBounded := by
  unfold State.takeCancel
  split
  · exact h.answer _ _
  · split
    · exact h.answer _ _
    · exact (h.frame (s.cancelSlot_frame _ _ _)).answer _ _ _

theorem State.MeasurementsBounded.takeModeRequest (h : s.MeasurementsBounded) (request : Byte)
    (named : Nat) : (s.takeModeRequest request named).MeasurementsBounded := by
  unfold State.takeModeRequest
  split
  · exact h.answer _ _
  · next ht => exact (h.requestMode ht).answer _ _ _

theorem State.MeasurementsBounded.takeTableRead (h : s.MeasurementsBounded) (request : Byte)
    (body : List Byte) : (s.takeTableRead request body).MeasurementsBounded := by
  unfold State.takeTableRead
  split <;> exact h.answer _ _ _

theorem State.MeasurementsBounded.takeSubstitute (h : s.MeasurementsBounded) (request : Byte)
    (number code : Nat) : (s.takeSubstitute request number code).MeasurementsBounded := by
  unfold State.takeSubstitute
  split
  · exact h.answer _ _
  · exact (h.imposeSubstitute _ _).answer _ _ _

theorem State.MeasurementsBounded.takeRelease (h : s.MeasurementsBounded) (request : Byte)
    (number : Nat) : (s.takeRelease request number).MeasurementsBounded := by
  unfold State.takeRelease
  split
  · exact h.answer _ _
  · split
    · exact h.answer _ _
    · exact (h.removeSubstitute _).answer _ _ _

theorem State.MeasurementsBounded.takeTraceSelect (h : s.MeasurementsBounded) (request : Byte)
    (number : Nat) : (s.takeTraceSelect request number).MeasurementsBounded := by
  unfold State.takeTraceSelect
  split
  · exact h.answer _ _
  · split
    · exact h.of_same rfl fun _ => rfl
    · exact h.answer _ _

theorem State.MeasurementsBounded.takeDiagRead (h : s.MeasurementsBounded) (x : RxTelegram)
    (selector count : Nat) (contents : State → Fin count → List Byte) :
    (s.takeDiagRead x selector count contents).MeasurementsBounded := by
  unfold State.takeDiagRead
  dsimp only
  split
  · exact h.answer _ _
  · split
    · exact h.answer _ _ _
    · exact h.answer _ _

/-! ### Events and commands -/

/-- An event keeps the measurements bounded if its own effect does. -/
theorem State.MeasurementsBounded.occur {event : State → Option State} (h : s.MeasurementsBounded)
    (ht : s.occur event = .next t) (he : ∀ u, event s = some u → u.MeasurementsBounded) :
    t.MeasurementsBounded := by
  rcases s.occur_cases ht with rfl | ⟨u, -, hu, rfl⟩
  · exact h
  · exact (he u hu).frame u.transmitNext_frame

/-- An event that takes place under a condition keeps the measurements bounded if its effect does. -/
theorem State.MeasurementsBounded.occur_if {c : Prop} [Decidable c] {v : State}
    (h : s.MeasurementsBounded) (ht : (s.occur fun _ => if c then some v else none) = .next t)
    (hv : v.MeasurementsBounded) : t.MeasurementsBounded := by
  refine h.occur ht fun u hu => ?_
  split at hu
  · cases hu; exact hv
  · cases hu

/-- An event that takes place where a search finds something keeps the measurements bounded if its effect
does. -/
theorem State.MeasurementsBounded.occur_map {α : Type} {found : Option α} {f : α → State}
    (h : s.MeasurementsBounded) (ht : (s.occur fun _ => found.map f) = .next t)
    (hf : ∀ a, (f a).MeasurementsBounded) : t.MeasurementsBounded := by
  refine h.occur ht fun u hu => ?_
  obtain ⟨a, -, rfl⟩ := Option.map_eq_some_iff.1 hu
  exact hf a

/-- The dispatch of a telegram keeps the measurements bounded if its owner does. -/
theorem State.MeasurementsBounded.dispatch {k : DeskKind} {takes : List Byte → Bool}
    {owner : RxTelegram → State → State} (h : s.MeasurementsBounded)
    (ht : s.occur (State.dispatch k takes owner) = .next t)
    (ho : ∀ x u, State.MeasurementsBounded u → (owner x u).MeasurementsBounded) :
    t.MeasurementsBounded := by
  have freed := h.frame s.freeBuffer_frame
  refine h.occur ht fun u hu => ?_
  obtain ⟨x, -, -, -, ⟨-, rfl⟩ | ⟨-, -, rfl⟩ | ⟨-, -, rfl⟩⟩ := s.dispatch_cases hu
  · exact freed.answer _ _
  · exact freed.answer _ _
  · exact ho x _ freed

theorem execReceiveTelegram_bounded {bytes : List Byte} (h : s.MeasurementsBounded)
    (ht : execReceiveTelegram bytes s = .next t) : t.MeasurementsBounded := by
  refine h.occur_if ht ?_
  split <;> exact h.of_same rfl fun _ => rfl

theorem execUnknownKind_bounded (h : s.MeasurementsBounded) (ht : execUnknownKind s = .next t) :
    t.MeasurementsBounded := by
  refine h.occur ht fun u hu => ?_
  split at hu
  · cases hu
  · split at hu
    · cases hu; exact h.of_same rfl fun _ => rfl
    · cases hu

theorem execIdleIntervalExpiry_bounded (h : s.MeasurementsBounded)
    (ht : execIdleIntervalExpiry s = .next t) : t.MeasurementsBounded := by
  refine h.occur ht fun u hu => ?_
  unfold State.idleWork at hu
  split at hu
  · split at hu
    · cases hu; exact h
    · split at hu
      · cases hu
      · split at hu
        · cases hu; exact h
        · cases hu; exact h.of_same rfl fun _ => rfl
  · cases hu

theorem execDeskSilenceExpiry_bounded (h : s.MeasurementsBounded)
    (ht : execDeskSilenceExpiry s = .next t) : t.MeasurementsBounded := by
  refine h.occur_if ht (State.MeasurementsBounded.frame ?_ (State.csuSilence_frame _ _))
  exact h.of_same rfl fun _ => rfl

theorem execKeyWithdrawal_bounded {stood : Nat} (h : s.MeasurementsBounded)
    (ht : execKeyWithdrawal stood s = .next t) : t.MeasurementsBounded := by
  have withdrawn : (s.setKey .withdrawn).MeasurementsBounded := h.of_same rfl fun _ => rfl
  refine h.occur_if ht ?_
  split
  · exact withdrawn.leaveMaintenance
  · exact withdrawn

theorem execCycleStart_bounded (h : s.MeasurementsBounded) (ht : execCycleStart s = .next t) :
    t.MeasurementsBounded := by
  refine h.occur ht fun u hu => ?_
  split at hu
  · split at hu
    · cases hu; exact h.frame (s.startCycle_frame false)
    · split at hu
      · cases hu
      · cases hu; exact h.of_same rfl fun _ => rfl
  · cases hu

theorem execCommitSwap_bounded (h : s.MeasurementsBounded) (ht : execCommitSwap s = .next t) :
    t.MeasurementsBounded := by
  refine h.occur ht fun u hu => ?_
  split at hu
  · cases hu
  · cases hu; exact h.swap.frame (State.endHold_frame _)

theorem execInputPoll_bounded (h : s.MeasurementsBounded) (ht : execInputPoll s = .next t) :
    t.MeasurementsBounded := by
  refine h.occur ht fun u hu => ?_
  split at hu
  · cases hu
  · cases hu; exact h.frame (s.setCycle_frame _)

theorem execDrivePoll_bounded (h : s.MeasurementsBounded) (ht : execDrivePoll s = .next t) :
    t.MeasurementsBounded := by
  refine h.occur ht fun u hu => ?_
  split at hu
  · cases hu
  · next m _ _ =>
    cases hu
    exact (h.frame (s.recordSentCodes_frame m)).frame (State.setCycle_frame _ _)

theorem execReplyFirstByte_bounded {byte : FirstByte} (h : s.MeasurementsBounded)
    (ht : execReplyFirstByte byte s = .next t) : t.MeasurementsBounded := by
  refine h.occur ht fun u hu => ?_
  split at hu
  · cases hu
  · split at hu
    · cases hu; exact h.of_same rfl fun _ => rfl
    · cases hu

theorem execReplyTimeout_bounded {clock : Micros} (h : s.MeasurementsBounded)
    (ht : execReplyTimeout clock s = .next t) : t.MeasurementsBounded := by
  refine h.occur ht fun u hu => ?_
  split at hu
  · cases hu
  · split at hu
    · cases hu; exact h.countFailure _ _ _ _ _ _
    · cases hu

theorem execReplySilence_bounded {clock : Micros} (h : s.MeasurementsBounded)
    (ht : execReplySilence clock s = .next t) : t.MeasurementsBounded := by
  refine h.occur ht fun u hu => ?_
  split at hu
  · cases hu
  · split at hu
    · cases hu; exact h.countFailure _ _ _ _ _ _
    · cases hu

theorem execInputReply_bounded {reply : Reply} (h : s.MeasurementsBounded)
    (ht : execInputReply reply s = .next t) : t.MeasurementsBounded :=
  h.occur ht fun _ => h.takeReply

theorem execDriveReply_bounded {reply : Reply} (h : s.MeasurementsBounded)
    (ht : execDriveReply reply s = .next t) : t.MeasurementsBounded :=
  h.occur ht fun _ => h.takeReply

theorem execImageArrival_bounded (h : s.MeasurementsBounded) (ht : execImageArrival s = .next t) :
    t.MeasurementsBounded := by
  refine h.occur ht fun u hu => ?_
  split at hu
  · cases hu
  · split at hu
    · cases hu
    · cases hu; exact h.takeArrival _ _

/-- Every command keeps the measurements bounded. -/
theorem exec_bounded (c : Instr) (h : s.MeasurementsBounded) (ht : exec c s = .next t) :
    t.MeasurementsBounded := by
  cases c with
  | powerOnReset key => cases ht; exact .takeReset key
  | receiveTelegram bytes => exact execReceiveTelegram_bounded h ht
  | receiveTruncated gap => exact h.occur_if ht (h.of_same rfl fun _ => rfl)
  | unknownKind => exact execUnknownKind_bounded h ht
  | control => exact h.dispatch ht fun _ u hu => hu.frame (u.takeControl_frame _)
  | cancel => exact h.dispatch ht fun _ _ hu => hu.takeCancel _ _
  | interrogate => exact h.dispatch ht fun _ u hu => (hu.frame u.startRefresh_frame).answer _ _
  | timeSet => exact h.dispatch ht fun _ _ hu => hu.of_same rfl fun _ => rfl
  | modeRequestOperate => exact h.dispatch ht fun _ _ hu => hu.takeModeRequest _ _
  | modeRequestMaintenance => exact h.dispatch ht fun _ _ hu => hu.takeModeRequest _ _
  | modeRequestNeither => exact h.dispatch ht fun _ _ hu => hu.takeModeRequest _ _
  | tableWrite => exact h.dispatch ht fun _ _ hu => hu.of_same rfl fun _ => rfl
  | tableRead => exact h.dispatch ht fun _ _ hu => hu.takeTableRead _ _
  | tableCommit => exact h.dispatch ht fun _ _ hu => hu.takeCommit _
  | substitute => exact h.dispatch ht fun _ _ hu => hu.takeSubstitute _ _ _
  | release => exact h.dispatch ht fun _ _ hu => hu.takeRelease _ _
  | traceSelectPoint => exact h.dispatch ht fun _ _ hu => hu.takeTraceSelect _ _
  | traceSelectNone => exact h.dispatch ht fun _ _ hu => hu.of_same rfl fun _ => rfl
  | counterClear => exact h.dispatch ht fun _ _ hu => hu.of_same rfl fun _ => rfl
  | restart => exact h.dispatch ht fun _ _ hu => hu.of_same rfl fun _ => rfl
  | restartReset key => exact h.occur_if ht (.takeReset key)
  | diagReadPoint => exact h.dispatch ht fun _ _ hu => hu.takeDiagRead _ _ _ _
  | diagReadGroup => exact h.dispatch ht fun _ _ hu => hu.takeDiagRead _ _ _ _
  | diagReadModule => exact h.dispatch ht fun _ _ hu => hu.takeDiagRead _ _ _ _
  | diagReadSlot => exact h.dispatch ht fun _ _ hu => hu.takeDiagRead _ _ _ _
  | diagReadPart =>
    refine h.dispatch ht fun _ _ hu => ?_
    split <;> exact hu.answer _ _ _
  | transmitEnd => exact h.occur_if ht (h.of_same rfl fun _ => rfl)
  | idleIntervalExpiry => exact execIdleIntervalExpiry_bounded h ht
  | deskSilenceExpiry => exact execDeskSilenceExpiry_bounded h ht
  | keyWithdrawal stood => exact execKeyWithdrawal_bounded h ht
  | keyPresented stood => exact h.occur_if ht (h.of_same rfl fun _ => rfl)
  | cycleStart => exact execCycleStart_bounded h ht
  | commitSwap => exact execCommitSwap_bounded h ht
  | inputPoll => exact execInputPoll_bounded h ht
  | drivePoll => exact execDrivePoll_bounded h ht
  | replyTimeout clock => exact execReplyTimeout_bounded h ht
  | replySilence clock => exact execReplySilence_bounded h ht
  | inputReply reply => exact execInputReply_bounded h ht
  | driveReply reply => exact execDriveReply_bounded h ht
  | imageArrival => exact execImageArrival_bounded h ht
  | pulseEnd slot => exact h.occur_map ht fun _ => h.frame (s.endPulse_frame _ _ _)
  | provingDeadline slot => exact h.occur_map ht fun _ => h.frame (s.endProving_frame _ _ _)
  | receiveOverlong length => exact h.occur_if ht (h.of_same rfl fun _ => rfl)
  | syncByte => exact h.occur_if ht (h.of_same rfl fun _ => rfl)
  | replyFirstByte byte => exact execReplyFirstByte_bounded h ht
  | resetAsserted => cases ht; exact h.of_same rfl fun _ => rfl

/-! ### Steps -/

/-- What the part finishes on an empty queue keeps the measurements bounded (R58, R146). -/
theorem State.MeasurementsBounded.unfinished (h : s.MeasurementsBounded)
    (ht : s.unfinished = some t) : t.MeasurementsBounded := by
  unfold State.unfinished at ht
  split at ht
  · cases ht
  · split at ht
    · cases ht
      exact (h.frame s.ageFinish_frame).frame (State.transmitNext_frame _)
    · split at ht
      · cases ht
        refine State.MeasurementsBounded.frame ?_ (State.transmitNext_frame _)
        exact h.of_same rfl fun _ => rfl
      · cases ht

theorem State.MeasurementsBounded.tick (h : s.MeasurementsBounded) : s.tick.MeasurementsBounded := by
  unfold State.tick
  split
  · exact h
  · exact h.of_same rfl fun _ => rfl

end Keeps

/-- What a step can do: the command at the front of the queue; on an empty queue what is left unfinished, a
command the part starts by itself, or a millisecond. -/
theorem step_cases {s t : State} (h : step s = .next t) :
    (∃ c rest, s.pending = c :: rest ∧ exec c { s with pending := rest } = .next t) ∨
    (s.pending = [] ∧
      (s.unfinished = some t ∨
       (s.unfinished = none ∧
         ((∃ c, s.selfStarted = some c ∧ exec c s = .next t) ∨
          (s.selfStarted = none ∧ t = s.tick))))) := by
  unfold step at h
  split at h
  · next c rest hp => exact .inl ⟨c, rest, hp, h⟩
  · next hp =>
    refine .inr ⟨hp, ?_⟩
    split at h
    · next hu => cases h; exact .inl hu
    · next hu =>
      refine .inr ⟨hu, ?_⟩
      split at h
      · next c hc => exact .inl ⟨c, hc, h⟩
      · next hc => cases h; exact .inr ⟨hc, rfl⟩

/-- Settles O59: each step is a command, what is left unfinished, or a millisecond. -/
theorem everyStepKeepsTheMeasurementsBounded :
    Obligations.EveryStepKeepsTheMeasurementsBounded := by
  intro s t h ht
  rcases step_cases ht with ⟨c, rest, -, hc⟩ | ⟨-, hu | ⟨-, ⟨c, -, hc⟩ | ⟨-, rfl⟩⟩⟩
  · exact exec_bounded c (s := { s with pending := rest }) (h.of_same rfl fun _ => rfl) hc
  · exact h.unfinished hu
  · exact exec_bounded c h hc
  · exact h.tick

end Sys2Proof.Machine

/-! PROOFS. Every step keeps the capacities, the counters and the mode sound. What the PE, the AGE, the ODU and
the CSU do on a notice is said once, as orderly work (`Orderly`); what an event of the line does to its module,
as `State.Scanned`; and what a command can do, as its effects (`Effect`, `exec_effects`). An invariant is then
kept by every step if it is kept by each effect (`StepsLead`). This part holds the orderly work. -/

namespace Sys2Proof.Table

/-- An update of the values present leaves an absent one absent. -/
theorem get_update_map_none {n : Nat} {α : Type} [DecidableEq α] (f : α → α)
    (t : Table n (Option α)) {i : Fin n} (h : get none t i = none) :
    get none (update none (fun _ o => o.map f) t) i = none := by
  rw [get_update none (fun _ o => o.map f) (fun _ => rfl), h, Option.map_none]

end Sys2Proof.Table

namespace Sys2Proof.Machine

/-! ### Work on notices -/

/-- `t` comes from `s` by the work that notices give rise to: it leaves the tables alone, hands records to a
queue that keeps its bound and counts its overflows (R89, R124), makes no arrival's hand-over, leaves none
to an AGE in step with the events, and neither occupies a FREE slot nor creates channel records. -/
structure Orderly (s t : State) : Prop where
  ts : t.ts = s.ts
  fits : s.system.watermark ≤ 256 → s.cq.queue.length ≤ 256 → t.cq.queue.length ≤ 256
  rises : s.cq.queueOverflows ≤ t.cq.queueOverflows
  limited : t.cq.queueOverflows ≤ max s.cq.queueOverflows 65535
  arrivals : (t.age.handOvers.filter HandOver.arrival).length ≤
    (s.age.handOvers.filter HandOver.arrival).length
  inStep : s.AgeInStep → t.age = s.age
  free : ∀ k, s.slot k = none → t.slot k = none
  undriven : ∀ m, s.channelBank m = none → t.channelBank m = none

theorem State.AgeInStep.of_age {s t : State} (h : s.AgeInStep) (ha : t.age = s.age) : t.AgeInStep :=
  ⟨(congrArg AgeWork.handOvers ha).trans h.finished, (congrArg AgeWork.pace ha).trans h.pace⟩

theorem Orderly.refl (s : State) : Orderly s s where
  ts := rfl
  fits _ h := h
  rises := le_rfl
  limited := le_max_left _ _
  arrivals := le_rfl
  inStep _ := rfl
  free _ h := h
  undriven _ h := h

theorem Orderly.trans {s t u : State} (h : Orderly s t) (h' : Orderly t u) : Orderly s u where
  ts := h'.ts.trans h.ts
  fits hw hq := h'.fits (by unfold State.system; rwa [h.ts]) (h.fits hw hq)
  rises := h.rises.trans h'.rises
  limited := h'.limited.trans (max_le h.limited (le_max_right _ _))
  arrivals := h'.arrivals.trans h.arrivals
  inStep hs := (h'.inStep (hs.of_age (h.inStep hs))).trans (h.inStep hs)
  free k hk := h'.free k (h.free k hk)
  undriven m hm := h'.undriven m (h.undriven m hm)

theorem Orderly.foldl {α : Type} {f : State → α → State} (h : ∀ s a, Orderly s (f s a)) (l : List α)
    (s : State) : Orderly s (l.foldl f s) := by
  induction l generalizing s with
  | nil => exact .refl s
  | cons a l ih => exact (h s a).trans (ih _)

/-- What touches none of tables, queue, AGE, slots and channels is orderly. -/
theorem Frame.orderly {l : List Block} {s t : State} (h : Frame l s t) (hts : .ts ∉ l := by decide)
    (hcq : .cq ∉ l := by decide) (hage : .age ∉ l := by decide) (hslots : .slots ∉ l := by decide)
    (hchannels : .channels ∉ l := by decide) : Orderly s t where
  ts := h.blocks .ts hts
  fits _ hq := (congrArg (fun q => q.queue.length) (h.blocks .cq hcq)).trans_le hq
  rises := (congrArg ChangeQueue.queueOverflows (h.blocks .cq hcq)).ge
  limited := (congrArg ChangeQueue.queueOverflows (h.blocks .cq hcq)).trans_le (le_max_left _ _)
  arrivals :=
    (congrArg (fun a => (a.handOvers.filter HandOver.arrival).length) (h.blocks .age hage)).le
  inStep _ := h.blocks .age hage
  free k hk := (h.slot_eq hslots k).trans hk
  undriven m hm := (h.channelBank_eq hchannels m).trans hm

/-- A counter due to rise stands higher, and within the limit of R89 unless it stood above it. -/
theorem le_bump (c : Nat) : c ≤ bump c := by unfold bump; split <;> omega

theorem bump_le (c : Nat) : bump c ≤ max c 65535 := by
  unfold bump Config.counterLimit; split <;> omega

variable (s : State)

/-! ### The queue, the slots and the channels -/

theorem State.hand_orderly (t : Time) (content : RecordContent) : Orderly s (s.hand t content) := by
  rcases s.hand_cases t content with ⟨h, e⟩ | ⟨-, e⟩
  · rw [e]
    exact { Orderly.refl s with fits := fun _ _ => by simpa using h }
  · rw [e]
    exact { Orderly.refl s with
      fits := fun _ _ => by simp
      rises := le_bump _
      limited := bump_le _ }

/-- Below a watermark within the queue's bound a TRACE record finds room (R126, R149). -/
theorem State.handTrace_orderly (t : Time) (p : PointNo) (levels : TraceLevels) :
    Orderly s (s.handTrace t p levels) := by
  rcases s.handTrace_cases t p levels with ⟨-, e⟩ | ⟨h, e⟩
  · rw [e]
    exact { Orderly.refl s with }
  · rw [e]
    exact { Orderly.refl s with fits := fun hw _ => by simpa using h.trans_le hw }

theorem State.freeSlot_orderly (k : SlotNo) : Orderly s (s.freeSlot k) :=
  { Orderly.refl s with
    free := fun j hj => by unfold State.freeSlot; rw [State.slot_setSlot, hj, ite_self] }

/-- An occupied slot takes other contents. -/
theorem State.setSlot_orderly {k : SlotNo} (hk : s.slot k ≠ none) (o : Option Slot) :
    Orderly s (s.setSlot k o) :=
  { Orderly.refl s with
    free := fun j hj => by
      rw [State.slot_setSlot, if_neg (by rintro rfl; exact hk hj), hj] }

theorem State.setChannel_orderly (m : ModuleNo) (ch : ChannelNo) (c : Channel) :
    Orderly s (s.setChannel m ch c) := by
  have bank := s.channelBank_setChannel m
  unfold State.setChannel at bank ⊢
  split
  · exact .refl s
  · next b hb =>
    exact { Orderly.refl s with
      undriven := fun k hk => by
        have := bank k ch c
        simp only [hb, hk] at this
        rw [this, if_neg (by rintro rfl; simp [hb] at hk)] }

/-- Channel records replaced where the ODU holds some. -/
theorem State.setBank_orderly {m : ModuleNo} {bank : Table 32 Channel}
    (h : s.channelBank m = some bank) (new : Table 32 Channel) :
    Orderly s { s with channels := s.channels.set none m (some new) } :=
  { Orderly.refl s with
    undriven := fun k hk => by
      have hkm : k ≠ m := by rintro rfl; simp [h] at hk
      exact (Table.get_set_ne none s.channels (some new) hkm).trans hk }

/-! ### ODU and CSU (Chapters 6 and 7) -/

theorem State.setCode_orderly (m : ModuleNo) (ch : ChannelNo) (code : DriveCode) :
    Orderly s (s.setCode m ch code) := by
  rcases s.setCode_cases m ch code with e | ⟨_, _, -, -, -, e⟩
  · rw [e]; exact .refl s
  · rw [e]; exact s.setChannel_orderly _ _ _

theorem State.dropFlashing_orderly : Orderly s s.dropFlashing :=
  { Orderly.refl s with undriven := fun _ hm => Table.get_update_map_none _ s.channels hm }

theorem State.oduModuleLost_orderly (m : ModuleNo) : Orderly s (s.oduModuleLost m) := by
  unfold State.oduModuleLost
  split
  · exact .refl s
  · next h => exact s.setBank_orderly h _

theorem State.recordSentCodes_orderly (m : ModuleNo) : Orderly s (s.recordSentCodes m) := by
  unfold State.recordSentCodes
  split
  · exact .refl s
  · next h => exact s.setBank_orderly h _

theorem State.issueIfOpen_orderly (sl : Slot) (r : CommandResult) (t : Time) :
    Orderly s (s.issueIfOpen sl r t) := by
  unfold State.issueIfOpen
  split
  · exact s.hand_orderly t _
  · exact .refl s

/-- An event at an occupied slot that takes other contents, after a record handed or a code set. -/
theorem State.setSlot_after {s t : State} {l : List Block} (h : Orderly s t) (hf : Frame l s t)
    {k : SlotNo} (hk : s.slot k ≠ none) (o : Option Slot) (hl : .slots ∉ l := by decide) :
    Orderly s (t.setSlot k o) :=
  h.trans (t.setSlot_orderly (by rwa [hf.slot_eq hl]) o)

theorem State.endPulse_orderly {k : SlotNo} (hk : s.slot k ≠ none) (sl : Slot) (due : Time) :
    Orderly s (s.endPulse k sl due) := by
  have code := s.setCode_orderly sl.mod sl.channel .off
  have frame := s.setCode_frame sl.mod sl.channel .off
  unfold State.endPulse
  dsimp only
  split
  · exact (code.trans (State.hand_orderly _ _ _)).trans (State.freeSlot_orderly _ _)
  · exact code.trans (State.freeSlot_orderly _ _)
  · exact State.setSlot_after code frame hk _
  · exact State.setSlot_after code frame hk _

theorem State.proveSlot_orderly {k : SlotNo} (hk : s.slot k ≠ none) (sl : Slot) (e : Time) :
    Orderly s (s.proveSlot k sl e) := by
  have issued : Orderly s (s.issue sl.control .proved e) := s.hand_orderly e _
  unfold State.proveSlot
  dsimp only
  split
  · exact issued.trans (State.freeSlot_orderly _ _)
  · split
    · exact (issued.trans (State.setCode_orderly _ _ _ _)).trans (State.freeSlot_orderly _ _)
    · exact State.setSlot_after issued (s.issue_frame _ _ _) hk _

theorem State.csuNotice_orderly (p : PointNo) (new : PointState) : Orderly s (s.csuNotice p new) := by
  refine Orderly.foldl (fun s k => ?_) allSlots s
  unfold State.noticeSlot
  split
  · exact .refl s
  · next hk =>
    split
    · exact .refl s
    · split
      · exact s.proveSlot_orderly (by simp [hk]) _ _
      · exact .refl s

theorem State.endProving_orderly (k : SlotNo) (sl : Slot) (due : Time) :
    Orderly s (s.endProving k sl due) := by
  unfold State.endProving
  dsimp only
  refine Orderly.trans ?_ (State.freeSlot_orderly _ k)
  split
  · exact (State.hand_orderly _ _ _).trans (State.setCode_orderly _ _ _ _)
  · exact State.hand_orderly _ _ _

theorem State.csuReadback_orderly (m : ModuleNo) (l : BitVec 32) (t : Time) :
    Orderly s (s.csuReadback m l t) := by
  refine Orderly.foldl (fun s k => ?_) allSlots s
  unfold State.confirmSlot
  split
  · exact .refl s
  · split
    · split
      · exact .refl s
      · split
        · exact (s.hand_orderly _ _).trans (State.freeSlot_orderly _ k)
        · exact .refl s
    · exact .refl s

/-- A result is issued where one is due, and the slot frees (R112 to R115). -/
theorem State.endSlot_orderly (k : SlotNo) (sl : Slot) (r : CommandResult) (t : Time) :
    Orderly s ((s.issueIfOpen sl r t).freeSlot k) :=
  (s.issueIfOpen_orderly sl r t).trans (State.freeSlot_orderly _ k)

theorem State.csuChannelFault_orderly (m : ModuleNo) (ch : ChannelNo) (t : Time) :
    Orderly s (s.csuChannelFault m ch t) := by
  unfold State.csuChannelFault
  split
  · exact .refl s
  · split
    · exact .refl s
    · exact s.endSlot_orderly _ _ _ _

theorem State.csuModuleLost_orderly (m : ModuleNo) (t : Time) : Orderly s (s.csuModuleLost m t) := by
  refine Orderly.foldl (fun s k => ?_) allSlots s
  unfold State.loseSlot
  split
  · exact .refl s
  · split
    · exact s.endSlot_orderly _ _ _ _
    · exact .refl s

theorem State.cancelSlot_orderly (k : SlotNo) (sl : Slot) (e : Time) :
    Orderly s (s.cancelSlot k sl e) := by
  have issued := s.issueIfOpen_orderly sl .cancelled e
  unfold State.cancelSlot
  dsimp only
  refine Orderly.trans ?_ (State.freeSlot_orderly _ k)
  split
  · exact issued.trans (State.setCode_orderly _ _ _ _)
  · exact issued.trans (State.setCode_orderly _ _ _ _)
  · exact issued
  · exact issued

theorem State.csuSilence_orderly (e : Time) : Orderly s (s.csuSilence e) := by
  refine (Orderly.foldl (fun s k => ?_) allSlots s).trans (State.dropFlashing_orderly _)
  unfold State.silenceSlot
  split
  · exact .refl s
  · dsimp only
    refine Orderly.trans ?_ (State.freeSlot_orderly _ k)
    split
    · exact (s.issueIfOpen_orderly _ _ _).trans (State.setCode_orderly _ _ _ _)
    · exact s.issueIfOpen_orderly _ _ _

theorem State.superviseChannel_orderly (m : ModuleNo) (l : BitVec 32) (t : Time) (ch : ChannelNo) :
    Orderly s (State.superviseChannel m l t s ch) := by
  unfold State.superviseChannel
  split
  · exact .refl s
  · split
    · exact s.setChannel_orderly _ _ _
    · exact ((s.setChannel_orderly _ _ _).trans (State.hand_orderly _ _ _)).trans
        (State.csuChannelFault_orderly _ _ _ _)
    · exact (s.setChannel_orderly _ _ _).trans (State.hand_orderly _ _ _)

theorem State.oduReadback_orderly (m : ModuleNo) (l : BitVec 32) (t : Time) :
    Orderly s (s.oduReadback m l t) := by
  unfold State.oduReadback
  refine Orderly.trans ?_ (State.csuReadback_orderly _ m l t)
  split
  · exact Orderly.foldl (fun s ch => s.superviseChannel_orderly m l t ch) _ s
  · exact .refl s

/-! ### AGE (R57, R58) -/

theorem State.evaluateGroup_orderly (arrival : Bool) (t : Time) (g : GroupNo) :
    Orderly s (State.evaluateGroup arrival t s g) := by
  have stored (r : GroupRecord) := (s.setGroupRec_frame g r).orderly
  unfold State.evaluateGroup
  dsimp only
  split
  · exact (stored _).trans (State.hand_orderly _ _ _)
  · exact stored _

theorem State.clearNoMatches_orderly (l : List GroupNo) :
    Orderly s (l.foldl State.clearNoMatch s) :=
  Orderly.foldl (fun s g => (s.clearNoMatch_frame g).orderly) l s

theorem State.workHandOver_orderly (h : HandOver) : Orderly s (s.workHandOver h) :=
  (Orderly.foldl (fun s g => s.evaluateGroup_orderly h.arrival h.time g) h.groups s).trans
    (State.clearNoMatches_orderly _ h.clears)

/-- The unfinished hand-overs replaced by ones with no more arrivals, where any were left. -/
theorem State.setHandOvers_orderly {hs : List HandOver}
    (ha : (hs.filter HandOver.arrival).length ≤
      (s.age.handOvers.filter HandOver.arrival).length)
    (hi : s.age.handOvers = [] → hs = []) : Orderly s (s.setHandOvers hs) :=
  { Orderly.refl s with
    arrivals := ha
    inStep := fun h => by
      simp only [State.setHandOvers_age, hi h.finished, ← h.finished] }

theorem State.ageFinish_orderly : Orderly s s.ageFinish :=
  (Orderly.foldl (fun s h => s.workHandOver_orderly h) s.age.handOvers s).trans
    (State.setHandOvers_orderly _ (Nat.zero_le _) fun _ => rfl)

theorem State.ageTurn_orderly : Orderly s s.ageTurn := by
  unfold State.ageTurn
  split
  · exact .refl s
  · next h rest hs =>
    split
    · next g _ _ =>
      have hf := (s.evaluateGroup_frame h.arrival h.time g).blocks .age (by decide)
      refine (s.evaluateGroup_orderly h.arrival h.time g).trans (State.setHandOvers_orderly _ ?_ ?_)
      · rw [hf, hs, List.filter_cons, List.filter_cons]
        split <;> exact le_rfl
      · rw [hf, hs]; nofun
    · have hf := (Frame.foldl _ State.clearNoMatch_frame h.clears s).blocks .age (by decide)
      refine (s.clearNoMatches_orderly h.clears).trans (State.setHandOvers_orderly _ ?_ ?_)
      · rw [hf, hs, List.filter_cons]
        split
        · exact Nat.le_succ _
        · exact le_rfl
      · rw [hf, hs]; nofun

theorem State.ageTurns_orderly (n : Nat) : Orderly s (s.ageTurns n) := by
  induction n generalizing s with
  | zero => exact .refl s
  | succ n ih => exact s.ageTurn_orderly.trans (ih _)

/-- The state in which a hand-over has joined those unfinished, and the AGE's pace is `pace`. -/
def State.joinHandOver (h : HandOver) (pace : List Nat) : State :=
  { s with age := { handOvers := s.age.handOvers ++ [h], pace := pace } }

/-- Once a hand-over has joined the others, the AGE does orderly work on them. -/
theorem State.handOver_cases (h : HandOver) : ∃ pace,
    Orderly (s.joinHandOver h pace) (s.handOver h) ∧
      Frame ageBlocks (s.joinHandOver h pace) (s.handOver h) := by
  unfold State.handOver
  dsimp only
  split
  · exact ⟨_, State.ageFinish_orderly _, State.ageFinish_frame _⟩
  · exact ⟨_, State.ageTurns_orderly _ _, State.ageTurns_frame _ _⟩

/-- An AGE in step with the events stays so at a hand-over (log entry 11). -/
theorem State.handOver_inStep (h : HandOver) (hs : s.AgeInStep) : (s.handOver h).age = s.age := by
  rw [hs.handOver_eq h]
  exact (s.workHandOver_frame h).blocks .age (by decide)

/-- A hand-over of changes is orderly. -/
theorem State.handOver_orderly {h : HandOver} (ha : h.arrival = false) :
    Orderly s (s.handOver h) := by
  obtain ⟨pace, w, -⟩ := s.handOver_cases h
  exact { w with
    arrivals := w.arrivals.trans (by simp [State.joinHandOver, List.filter_append, ha])
    inStep := s.handOver_inStep h }

/-! ### PE (Chapter 1) -/

theorem State.handPoint_orderly (p : PointNo) (old new : PointRecord) (t : Time) (x : PointExtra) :
    Orderly s (s.handPoint p old new t x) := by
  unfold State.handPoint
  split
  · exact s.hand_orderly _ _
  · exact .refl s

/-- A point's new record and its POINT record (R10 step 1). -/
theorem State.storePoint_orderly (p : PointNo) (old new : PointRecord) (t : Time) (x : PointExtra) :
    Orderly s ((s.setPointRec p new).handPoint p old new t x) :=
  (s.setPointRec_frame p new).orderly.trans (State.handPoint_orderly _ _ _ _ _ _)

theorem State.handOn_orderly (p : PointNo) (new : PointRecord) (t : Time) (x : PointExtra) :
    Orderly s (s.handOn p new t x) := by
  unfold State.handOn
  dsimp only
  split
  · exact (s.storePoint_orderly _ _ _ _ _).trans (State.csuNotice_orderly _ _ _)
  · exact s.storePoint_orderly _ _ _ _ _

theorem State.losePoint_orderly (p : PointNo) (t : Time) : Orderly s (s.losePoint p t) := by
  unfold State.losePoint
  dsimp only
  split
  · exact (s.setPointRec_frame _ _).orderly
  · exact s.handOn_orderly _ _ _ _

theorem State.traceSample_orderly (p : PointNo) (l : TraceLevels) (t : Time) :
    Orderly s (s.traceSample p l t) := by
  unfold State.traceSample
  split
  · exact { s.handTrace_orderly t p l with }
  · exact .refl s

theorem State.arriveAt_orderly (arr : BankImage) (p : PointNo) : Orderly s (s.arriveAt arr p) := by
  unfold State.arriveAt
  dsimp only
  split
  · split
    · exact .refl s
    · exact (s.handOn_orderly _ _ _ _).trans (State.traceSample_orderly _ _ _ _)
  · exact s.losePoint_orderly _ _

theorem noticePoint_orderly (t : Time) (acc : State × List PointNo) (p : PointNo) :
    Orderly acc.1 (noticePoint t acc p).1 := by
  unfold noticePoint
  dsimp only
  split
  · exact .refl _
  · exact acc.1.losePoint_orderly p t

theorem noticePoints_orderly (t : Time) (l : List PointNo) (acc : State × List PointNo) :
    Orderly acc.1 (l.foldl (noticePoint t) acc).1 := by
  induction l generalizing acc with
  | nil => exact .refl _
  | cons p l ih => exact (noticePoint_orderly t acc p).trans (ih _)

theorem State.moduleNotice_orderly (m : ModuleNo) (t : Time) : Orderly s (s.moduleNotice m t) :=
  (noticePoints_orderly t (s.pointsOn m) (s, [])).trans (State.handOver_orderly _ rfl)

theorem State.imposeSubstitute_orderly (p : PointNo) (v : StateValue) :
    Orderly s (s.imposeSubstitute p v) := by
  have stored : Orderly s (s.setSubstitute p (some v) .none) := s.storePoint_orderly _ _ _ _ _
  unfold State.imposeSubstitute
  dsimp only
  split
  · exact stored.trans (State.handOver_orderly _ rfl)
  · exact stored

theorem State.removeSubstitute_orderly (p : PointNo) : Orderly s (s.removeSubstitute p) := by
  have stored (x : PointExtra) : Orderly s (s.setSubstitute p none x) :=
    s.storePoint_orderly _ _ _ _ _
  unfold State.removeSubstitute
  dsimp only
  split
  · exact (stored _).trans (State.handOver_orderly _ rfl)
  · exact stored _

/-! ### The notices of a module's change of state (R84) -/

theorem State.stateNotices_orderly (m : ModuleNo) (new : ModuleState) (t : Time) :
    Orderly s (s.stateNotices m new t) := by
  unfold State.stateNotices
  split
  · exact s.moduleNotice_orderly m t
  · split
    · exact (s.oduModuleLost_orderly m).trans (State.csuModuleLost_orderly _ m t)
    · exact .refl s
  · exact .refl s

end Sys2Proof.Machine

/-! PROOFS. How the counters rise (R89), and what an event of the line does to its module. -/

namespace Sys2Proof.Machine

/-! ### Counters (R89) -/

/-- A counter stays, or rises by 1 within its limit (R89). -/
def Rises (a b : Nat) : Prop := b = a ∨ (a < 65535 ∧ b = a + 1)

theorem Rises.refl (a : Nat) : Rises a a := .inl rfl

theorem Rises.of_eq {a b : Nat} (h : b = a) : Rises a b := .inl h

theorem rises_bump (c : Nat) : Rises c (bump c) := by
  unfold bump Config.counterLimit
  split
  · next h => exact .inr ⟨h, rfl⟩
  · exact .refl c

/-- A counter that rises stays within its limit. -/
theorem Rises.le {a b : Nat} (h : Rises a b) (ha : a ≤ 65535) : b ≤ 65535 := by
  rcases h with h | ⟨h, h'⟩ <;> omega

/-- Each of a module's five counters rises at most once, and its two counts stay within theirs (R67, R89). -/
structure ModuleRec.Tallies (r r' : ModuleRec) : Prop where
  replyTimeouts : Rises r.replyTimeouts r'.replyTimeouts
  crcErrors : Rises r.crcErrors r'.crcErrors
  formatErrors : Rises r.formatErrors r'.formatErrors
  missedScans : Rises r.missedScans r'.missedScans
  lossEvents : Rises r.lossEvents r'.lossEvents
  good : r.good ≤ 15 → r'.good ≤ 15
  miss : r.miss ≤ 15 → r'.miss ≤ 15

theorem ModuleRec.Tallies.refl (r : ModuleRec) : r.Tallies r :=
  ⟨.refl _, .refl _, .refl _, .refl _, .refl _, id, id⟩

theorem ModuleRec.Tallies.withinLimits {r r' : ModuleRec} (h : r.Tallies r') (hr : r.withinLimits) :
    r'.withinLimits := by
  obtain ⟨ht, hc, hf, hm, hl, hg, hmi⟩ := hr
  exact ⟨h.replyTimeouts.le ht, h.crcErrors.le hc, h.formatErrors.le hf, h.missedScans.le hm,
    h.lossEvents.le hl, h.good hg, h.miss hmi⟩

/-- A good scan raises no counter (R82). -/
theorem ModuleRec.Tallies.goodScan {r r' : ModuleRec} (h : r.Tallies r') (sys : SystemRecord) :
    r.Tallies (r'.goodScan sys) :=
  { h with good := fun _ => min_le_right _ _, miss := fun _ => Nat.zero_le _ }

/-- A missed scan raises MISSED_SCANS and LOSS_EVENTS, each at most once, and no other counter (R83). -/
theorem ModuleRec.Tallies.missedScan {r r' : ModuleRec} (h : r.Tallies r')
    (hm : r'.missedScans = r.missedScans) (hl : r'.lossEvents = r.lossEvents) (sys : SystemRecord) :
    r.Tallies (r'.missedScan sys) :=
  { h with
    missedScans := by
      unfold ModuleRec.missedScan
      dsimp only
      rw [hm]
      split
      · exact .refl _
      · exact rises_bump _
    lossEvents := by
      unfold ModuleRec.missedScan
      dsimp only
      rw [hl]
      split
      · exact rises_bump _
      · exact .refl _
    good := fun _ => Nat.zero_le _
    miss := fun _ => min_le_right _ _ }

variable (s : State)

theorem State.startCycle_rises (late : Bool) :
    Rises s.slc.cycleOverruns (s.startCycle late).slc.cycleOverruns := by
  rcases s.startCycle_cases late with ⟨-, e⟩ | ⟨_, -, e⟩
  · rw [e]; exact .refl _
  · rw [e]
    cases late
    · exact .refl _
    · exact rises_bump _

theorem State.finishIfDone_rises : Rises s.slc.cycleOverruns s.finishIfDone.slc.cycleOverruns := by
  rcases s.finishIfDone_cases with e | ⟨_, -, -, -, -, ⟨-, e⟩ | ⟨-, e⟩⟩
  · rw [e]; exact .refl _
  · rw [e]; exact .refl _
  · rw [e]; exact (s.setCycle none).startCycle_rises true

theorem State.endScan_rises (m : ModuleNo) :
    Rises s.slc.cycleOverruns (s.endScan m).slc.cycleOverruns := by
  unfold State.endScan
  split
  · exact .refl _
  · exact (s.setCycle _).finishIfDone_rises

theorem State.endHold_rises : Rises s.slc.cycleOverruns s.endHold.slc.cycleOverruns := by
  unfold State.endHold
  split
  · exact .refl _
  · split
    · exact (s.setCycle _).finishIfDone_rises
    · exact .refl _

theorem State.endHold_banks : s.endHold.slc.banks = s.slc.banks := by
  unfold State.endHold
  split
  · rfl
  · split
    · rw [State.finishIfDone_banks]; rfl
    · rfl

/-! ### A module's part in an event of the line -/

/-- `t` comes from `s` by an event of the line at module `m`: orderly work within the blocks of a scan, by
which the module's record becomes `new`, every other one stays, the reply banks keep their number (R73) and
CYCLE_OVERRUNS rises at most once (R71). -/
structure State.Scanned (s : State) (m : ModuleNo) (new : ModuleRec) (t : State) : Prop where
  orderly : Orderly s t
  frame : Frame scanBlocks s t
  own : t.moduleRec m = new
  others : ∀ k, k ≠ m → t.moduleRec k = s.moduleRec k
  banks : s.slc.banks.length ≤ 2 → t.slc.banks.length ≤ 2
  overruns : Rises s.slc.cycleOverruns t.slc.cycleOverruns

/-- An event of the line that leaves CYCLE_OVERRUNS alone. -/
structure State.Recorded (s : State) (m : ModuleNo) (new : ModuleRec) (t : State) : Prop
    extends s.Scanned m new t where
  sameOverruns : t.slc.cycleOverruns = s.slc.cycleOverruns

section Scans

variable {s} {t u : State} {m : ModuleNo} {r r' : ModuleRec}

/-- Of the events at one module the last gives its record. -/
theorem State.Recorded.scanned_trans (h : s.Recorded m r t) (h' : t.Scanned m r' u) :
    s.Scanned m r' u where
  orderly := h.orderly.trans h'.orderly
  frame := h.frame.trans h'.frame
  own := h'.own
  others k hk := (h'.others k hk).trans (h.others k hk)
  banks hb := h'.banks (h.banks hb)
  overruns := h.sameOverruns ▸ h'.overruns

theorem State.Recorded.trans (h : s.Recorded m r t) (h' : t.Recorded m r' u) :
    s.Recorded m r' u where
  toScanned := h.scanned_trans h'.toScanned
  sameOverruns := h'.sameOverruns.trans h.sameOverruns

/-- A module's new record. -/
theorem State.recorded_setModuleRec (s : State) (m : ModuleNo) (r : ModuleRec) :
    s.Recorded m r (s.setModuleRec m r) where
  orderly := (s.setModuleRec_frame m r).orderly
  frame := (s.setModuleRec_frame m r).mono (by decide)
  own := by rw [State.moduleRec_setModuleRec, if_pos rfl]
  others k hk := by rw [State.moduleRec_setModuleRec, if_neg hk]
  banks := id
  overruns := .refl _
  sameOverruns := rfl

/-- What touches the SLC alone and keeps its module records. -/
theorem Frame.scanned (hf : Frame [.slc] s t) (hm : t.slc.modules = s.slc.modules)
    (hb : s.slc.banks.length ≤ 2 → t.slc.banks.length ≤ 2)
    (ho : Rises s.slc.cycleOverruns t.slc.cycleOverruns) (hr : s.moduleRec m = r) :
    s.Scanned m r t where
  orderly := hf.orderly
  frame := hf.mono (by decide)
  own := by rw [← hr]; unfold State.moduleRec; rw [hm]
  others k _ := by unfold State.moduleRec; rw [hm]
  banks := hb
  overruns := ho

/-- Orderly work that does not touch the SLC. -/
theorem Orderly.recorded {l : List Block} (h : Orderly s t) (hf : Frame l s t)
    (hr : s.moduleRec m = r) (hslc : .slc ∉ l := by decide) (hl : l ⊆ scanBlocks := by decide) :
    s.Recorded m r t where
  orderly := h
  frame := hf.mono hl
  own := (hf.moduleRec_eq hslc m).trans hr
  others k _ := hf.moduleRec_eq hslc k
  banks hb := by rwa [hf.blocks .slc hslc]
  overruns := .of_eq (congrArg ScanLine.cycleOverruns (hf.blocks .slc hslc))
  sameOverruns := congrArg ScanLine.cycleOverruns (hf.blocks .slc hslc)

/-- The end of the scan, at which a cycle may start late (R70, R71). -/
theorem State.Recorded.endScan (h : s.Recorded m r t) : s.Scanned m r (t.endScan m) :=
  h.scanned_trans <| (t.endScan_frame m).scanned (t.endScan_modules m)
    (fun hb => (congrArg List.length (t.endScan_banks m)).trans_le hb) (t.endScan_rises m) h.own

theorem State.Recorded.setCycle (h : s.Recorded m r t) (c : Option Cycle) :
    s.Scanned m r (t.setCycle c) :=
  h.scanned_trans <| (t.setCycle_frame c).scanned rfl id (.refl _) h.own

theorem State.recorded_setLineClock (s : State) (m : ModuleNo) (clock : Micros) :
    s.Recorded m (s.moduleRec m) (s.setLineClock clock) where
  toScanned := (s.setLineClock_frame clock).scanned rfl id (.refl _) rfl
  sameOverruns := rfl

/-- An image is placed where a bank is free (R73, R74). -/
theorem State.placeImage_cases (s : State) (i : BankImage) :
    (s.slc.banks.length < 2 ∧
      s.placeImage i = { s with slc := { s.slc with banks := s.slc.banks ++ [i] } }) ∨
    s.placeImage i = s := by
  unfold State.placeImage Config.replyBanks
  split
  · next h => exact .inl ⟨h, rfl⟩
  · exact .inr rfl

theorem State.Recorded.placeImage (h : s.Recorded m r t) (i : BankImage) :
    s.Recorded m r (t.placeImage i) := by
  have frame := t.placeImage_frame i
  rcases t.placeImage_cases i with ⟨hlt, e⟩ | e
  · rw [e] at frame ⊢
    exact h.trans ⟨frame.scanned rfl (fun _ => by simpa using hlt) (.refl _) h.own, rfl⟩
  · rw [e]; exact h

variable (s) in
/-- A module's new record with what a change of its state hands on (R84). -/
theorem State.recorded_notices (m : ModuleNo) (r : ModuleRec) (old : ModuleState) (time : Time)
    (c : Prop) [Decidable c] {notice : State → State} (ho : ∀ u, Orderly u (notice u))
    (hf : ∀ u, Frame noticeBlocks u (notice u)) :
    let stored := (s.setModuleRec m r).moduleRecord m old r.state time
    s.Recorded m r (if c then notice stored else stored) := by
  intro stored
  have hr := (s.recorded_setModuleRec m r).own
  have orderly : Orderly (s.setModuleRec m r) stored := by
    unfold stored State.moduleRecord
    split
    · exact State.hand_orderly _ _ _
    · exact .refl _
  have frame : Frame [.cq] (s.setModuleRec m r) stored := State.moduleRecord_frame _ _ _ _ _
  refine (s.recorded_setModuleRec m r).trans ?_
  split
  · exact (orderly.trans (ho _)).recorded ((frame.mono (by decide)).trans (hf _)) hr
  · exact orderly.recorded frame hr

variable (s)

theorem State.missScan_scanned (m : ModuleNo) (time : Time) :
    s.Scanned m ((s.moduleRec m).missedScan s.system) (s.missScan m time) :=
  (s.recorded_notices m _ _ time _ (fun u => u.stateNotices_orderly m _ time)
    fun u => u.stateNotices_frame m _ time).endScan

/-- The record of an INPUT module after an accepted reply (R79). -/
def State.inputAccepted (m : ModuleNo) (levels : BitVec 64) (wetting : Bool) (time : Time) :
    ModuleRec :=
  ({ s.moduleRec m with image := some ⟨levels, time⟩, wetting := wetting } : ModuleRec).goodScan
    s.system

theorem State.inputAccepted_tallies (m : ModuleNo) (levels : BitVec 64) (wetting : Bool)
    (time : Time) : (s.moduleRec m).Tallies (s.inputAccepted m levels wetting time) := by
  have stored : (s.moduleRec m).Tallies
      { s.moduleRec m with image := some ⟨levels, time⟩, wetting := wetting } :=
    { ModuleRec.Tallies.refl (s.moduleRec m) with }
  exact stored.goodScan _

theorem State.acceptInput_scanned (m : ModuleNo) (levels : BitVec 64) (wetting : Bool) (time : Time) :
    s.Scanned m (s.inputAccepted m levels wetting time) (s.acceptInput m levels wetting time) := by
  have noticed (c : Prop) [Decidable c] := s.recorded_notices m
    (s.inputAccepted m levels wetting time) (s.moduleRec m).state time c
    (fun u => u.moduleNotice_orderly m time) fun u => u.moduleNotice_frame m time
  unfold State.acceptInput
  dsimp only
  split
  · exact ((noticed _).placeImage _).endScan
  · exact (noticed _).endScan

/-- The record of an OUTPUT module after an accepted reply (R80). -/
def State.driveAccepted (m : ModuleNo) (levels : BitVec 32) (time : Time) : ModuleRec :=
  ({ s.moduleRec m with readback := some ⟨levels, time⟩ } : ModuleRec).goodScan s.system

theorem State.driveAccepted_tallies (m : ModuleNo) (levels : BitVec 32) (time : Time) :
    (s.moduleRec m).Tallies (s.driveAccepted m levels time) := by
  have stored : (s.moduleRec m).Tallies { s.moduleRec m with readback := some ⟨levels, time⟩ } :=
    { ModuleRec.Tallies.refl (s.moduleRec m) with }
  exact stored.goodScan _

theorem State.acceptDrive_scanned (m : ModuleNo) (levels : BitVec 32) (time : Time) :
    s.Scanned m (s.driveAccepted m levels time) (s.acceptDrive m levels time) := by
  have noticed := s.recorded_notices m (s.driveAccepted m levels time) (s.moduleRec m).state time
    ((s.driveAccepted m levels time).state ≠ (s.moduleRec m).state)
    (fun u => u.stateNotices_orderly m (s.driveAccepted m levels time).state time)
    fun u => u.stateNotices_frame m _ time
  exact (noticed.trans ((State.oduReadback_orderly _ m levels time).recorded
    (State.oduReadback_frame _ m levels time) noticed.own)).endScan

/-- A reply judged leaves the module a record whose counters have risen at most once (R78 to R80). -/
theorem State.judgeReply_scanned (m : ModuleNo) (use : Use) (data : List Byte) :
    ∃ new, (s.moduleRec m).Tallies new ∧ s.Scanned m new (s.judgeReply m use data) := by
  have same := ModuleRec.Tallies.refl (s.moduleRec m)
  unfold State.judgeReply
  dsimp only
  split
  · exact ⟨_, same.missedScan rfl rfl _, s.missScan_scanned m _⟩
  · split
    · exact ⟨_, s.inputAccepted_tallies m _ _ _, s.acceptInput_scanned m _ _ _⟩
    · exact ⟨_, s.driveAccepted_tallies m _ _, s.acceptDrive_scanned m _ _⟩
    · exact ⟨_, same, ((Orderly.refl s).recorded (.refl [] s) rfl).toScanned⟩

/-- A counter of the polled module raised, and the attempt failed (R76 to R78). -/
theorem State.countFailure_scanned (clock : Micros) (c : Cycle) (sc : Scan) {r : ModuleRec}
    (time : Time) (hr : (s.moduleRec sc.mod).Tallies r)
    (hm : r.missedScans = (s.moduleRec sc.mod).missedScans)
    (hl : r.lossEvents = (s.moduleRec sc.mod).lossEvents) :
    ∃ new, (s.moduleRec sc.mod).Tallies new ∧
      s.Scanned sc.mod new (((s.setLineClock clock).setModuleRec sc.mod r).failAttempt c sc time) := by
  have counted := (s.recorded_setLineClock sc.mod clock).trans
    (State.recorded_setModuleRec _ sc.mod r)
  rcases State.failAttempt_cases ((s.setLineClock clock).setModuleRec sc.mod r) c sc time with
    ⟨-, e⟩ | ⟨-, e⟩
  · rw [e]
    exact ⟨r, hr, counted.setCycle _⟩
  · rw [e]
    refine ⟨_, ?_, counted.scanned_trans (State.missScan_scanned _ sc.mod time)⟩
    rw [counted.own]
    exact hr.missedScan hm hl _

end Scans

end Sys2Proof.Machine

/-! PROOFS. What a command and a step can do, and what the shared operations leave of the blocks that the
invariants speak of. -/

namespace Sys2Proof.Machine

/-! ### What a command does -/

/-- The effects that a command can have on the running part, before the transmitter takes its next work.
`x` is the telegram dispatched; what several commands do alike is given once, for whichever does it. -/
inductive Effect (s : State) : Instr → State → Prop
  | poweredOn (key : KeyLevel) : Effect s (.powerOnReset key) (s.takeReset key)
  | restarted (key : KeyLevel) : Effect s (.restartReset key) (s.takeReset key)
  /-- The receiver begins or ends assembly (R135). -/
  | receiver (c : Instr) (r : Receiver) : Effect s c (s.setReceiver r)
  | received (bytes : List Byte) (x : RxTelegram) :
      Effect s (.receiveTelegram bytes) ((s.setReceiver .hunting).receiveValid x)
  | crcFailed (bytes : List Byte) :
      Effect s (.receiveTelegram bytes) (s.setReceiver .hunting).countDeskCrc
  /-- A telegram that is answered and does no more: one refused, or one that reads (R137). -/
  | answered (c : Instr) (x : RxTelegram) (status : AnswerStatus) (payload : List Byte) :
      s.dispatchable = some x → Effect s c (s.freeBuffer.answer x.kind status payload)
  | control (x : RxTelegram) : s.dispatchable = some x →
      Effect s .control (s.freeBuffer.takeControl (controlOf x.body))
  | cancelled (x : RxTelegram) (k : SlotNo) (sl : Slot) (payload : List Byte) :
      s.dispatchable = some x →
      Effect s .cancel ((s.freeBuffer.cancelSlot k sl s.now).answer x.kind .accepted payload)
  | interrogated (x : RxTelegram) : s.dispatchable = some x →
      Effect s .interrogate (s.freeBuffer.startRefresh.answer x.kind .accepted)
  | timeSet (x : RxTelegram) (desk : Time) : s.dispatchable = some x →
      Effect s .timeSet ((s.freeBuffer.setDeskTime desk x.received).answer x.kind .accepted)
  /-- A MODE_REQUEST that is obeyed (R156). -/
  | modeRequested (c : Instr) (x : RxTelegram) (named : Nat) (v : State) (payload : List Byte) :
      s.dispatchable = some x → s.freeBuffer.requestMode named = some v →
      Effect s c (v.answer x.kind .accepted payload)
  | tableWritten (x : RxTelegram) : s.dispatchable = some x →
      Effect s .tableWrite (s.freeBuffer.takeTableWrite x.kind x.body)
  /-- The first commit after a reset (R154). -/
  | firstCommit (x : RxTelegram) : s.dispatchable = some x → s.ts.mode = .unconfigured →
      s.ts.shadow.firstInvalid = none → Effect s .tableCommit s.freeBuffer.swap
  /-- A later commit, which becomes pending (R154). -/
  | commitPending (x : RxTelegram) : s.dispatchable = some x → s.ts.mode = .maintenance →
      (∀ k, s.slot k = none) → s.ts.shadow.firstInvalid = none →
      Effect s .tableCommit
        { s.freeBuffer with ts := { s.freeBuffer.ts with commitPending := true } }
  | substituted (x : RxTelegram) (p : PointNo) (v : StateValue) (payload : List Byte) :
      s.dispatchable = some x →
      Effect s .substitute ((s.freeBuffer.imposeSubstitute p v).answer x.kind .accepted payload)
  | released (x : RxTelegram) (p : PointNo) (payload : List Byte) : s.dispatchable = some x →
      Effect s .release ((s.freeBuffer.removeSubstitute p).answer x.kind .accepted payload)
  | traceSelected (c : Instr) (x : RxTelegram) (p : Option PointNo) (payload : List Byte) :
      s.dispatchable = some x →
      Effect s c ((s.freeBuffer.selectTrace p).answer x.kind .accepted payload)
  | countersCleared (x : RxTelegram) : s.dispatchable = some x →
      Effect s .counterClear (s.freeBuffer.clearCounters.answer x.kind .accepted)
  | restartBegun (x : RxTelegram) : s.dispatchable = some x →
      Effect s .restart (s.freeBuffer.answer x.kind .accepted).beginRestart
  | transmitted : Effect s .transmitEnd s.freeTransmitter
  /-- The idle interval has passed and there is other work (R142, R144). -/
  | notIdle : Effect s .idleIntervalExpiry s
  | idle : Effect s .idleIntervalExpiry s.sendIdle
  | silenceExpired (e : Time) : Effect s .deskSilenceExpiry (s.expireSilence e)
  | keyWithdrawn (stood : Nat) : s.ts.mode ≠ .maintenance →
      Effect s (.keyWithdrawal stood) (s.setKey .withdrawn)
  | maintenanceLeft (stood : Nat) : s.ts.mode = .maintenance →
      Effect s (.keyWithdrawal stood) (s.setKey .withdrawn).leaveMaintenance
  | keyPresented (stood : Nat) : Effect s (.keyPresented stood) (s.setKey .presented)
  | cycleStarted : Effect s .cycleStart (s.startCycle false)
  | cycleDelayed : Effect s .cycleStart { s with slc := { s.slc with lateWaiting := true } }
  | swapped : s.ts.commitPending → Effect s .commitSwap s.swap.endHold
  /-- An attempt's poll is sent, or the first byte of its reply begins (R75, R76). -/
  | attempted (c : Instr) (clock : Micros) (cycle : Option Cycle) : s.slc.cycle ≠ none →
      Effect s c ((s.setLineClock clock).setCycle cycle)
  | driven (m : ModuleNo) (cycle : Option Cycle) : s.slc.cycle ≠ none →
      Effect s .drivePoll ((s.recordSentCodes m).setCycle cycle)
  /-- An attempt fails, or a reply is taken (R76 to R80). -/
  | scanned (c : Instr) (m : ModuleNo) (new : ModuleRec) (u : State) : s.slc.cycle ≠ none →
      (s.moduleRec m).Tallies new → s.Scanned m new u → Effect s c u
  | arrived (arr : BankImage) (rest : List BankImage) : s.slc.banks = arr :: rest →
      s.arrivalUnfinished = false → Effect s .imageArrival (s.takeArrival arr rest)
  | pulseEnded (k : SlotNo) (sl : Slot) (due : Time) : s.slot k = some sl →
      Effect s (.pulseEnd k) (s.endPulse k sl due)
  | provingEnded (k : SlotNo) (sl : Slot) (due : Time) :
      Effect s (.provingDeadline k) (s.endProving k sl due)

/-- Command `c` brings `s` to `t`: it changes nothing, or it has an effect, after which the transmitter
takes its next work (R142). -/
def Effects (s : State) (c : Instr) (t : State) : Prop :=
  t = s ∨ ∃ u, Effect s c u ∧ t = u.transmitNext

section Commands

variable {s t : State} {c : Instr}

theorem Effects.of_occur {event : State → Option State} (ht : s.occur event = .next t)
    (he : ∀ u, event s = some u → Effect s c u) : Effects s c t := by
  rcases s.occur_cases ht with rfl | ⟨u, -, hu, rfl⟩
  · exact .inl rfl
  · exact .inr ⟨u, he u hu, rfl⟩

/-- An event under a condition. -/
theorem Effects.of_if {p : Prop} [Decidable p] {v : State}
    (ht : (s.occur fun _ => if p then some v else none) = .next t) (he : p → Effect s c v) :
    Effects s c t := by
  refine .of_occur ht fun u hu => ?_
  split at hu
  · next hp => cases hu; exact he hp
  · cases hu

/-- A dispatch refuses the telegram, or its owner takes it where the mode permits (R137). -/
theorem Effects.of_dispatch {k : DeskKind} {takes : List Byte → Bool}
    {owner : RxTelegram → State → State} (ht : s.occur (State.dispatch k takes owner) = .next t)
    (ho : ∀ x, s.dispatchable = some x → k.permitted s.ts.mode → Effect s c (owner x s.freeBuffer)) :
    Effects s c t := by
  refine .of_occur ht fun u hu => ?_
  obtain ⟨x, hx, -, -, ⟨-, rfl⟩ | ⟨-, -, rfl⟩ | ⟨-, hp, rfl⟩⟩ := s.dispatch_cases hu
  · exact .answered c x _ _ hx
  · exact .answered c x _ _ hx
  · exact ho x hx hp

theorem State.ne_none_of_scanIn {line : LinePhase} {p : Cycle × Scan} (h : s.scanIn line = some p) :
    s.slc.cycle ≠ none := by
  unfold State.scanIn at h
  split at h
  · cases h
  · next hc => simp [hc]

theorem State.ne_none_of_pollReady {use : Use} {p : Cycle × ModuleNo × Nat}
    (h : s.pollReady use = some p) : s.slc.cycle ≠ none := by
  unfold State.pollReady at h
  split at h
  · cases h
  · next hc => simp [hc]

theorem execUnknownKind_effects (ht : execUnknownKind s = .next t) : Effects s .unknownKind t := by
  refine .of_occur ht fun u hu => ?_
  split at hu
  · cases hu
  · next hx =>
    split at hu
    · cases hu; exact .answered _ _ _ _ hx
    · cases hu

theorem takeCancel_effect {x : RxTelegram} (hx : s.dispatchable = some x) (n : ControlNo) :
    Effect s .cancel (s.freeBuffer.takeCancel x.kind n) := by
  unfold State.takeCancel
  split
  · exact .answered _ _ _ _ hx
  · split
    · exact .answered _ _ _ _ hx
    · exact .cancelled _ _ _ _ hx

theorem takeModeRequest_effect (c : Instr) {x : RxTelegram} (hx : s.dispatchable = some x) (n : Nat) :
    Effect s c (s.freeBuffer.takeModeRequest x.kind n) := by
  unfold State.takeModeRequest
  split
  · exact .answered _ _ _ _ hx
  · next hv => exact .modeRequested _ _ n _ _ hx hv

theorem takeTableRead_effect {x : RxTelegram} (hx : s.dispatchable = some x) (body : List Byte) :
    Effect s .tableRead (s.freeBuffer.takeTableRead x.kind body) := by
  unfold State.takeTableRead
  split <;> exact .answered _ _ _ _ hx

theorem State.anySlotOccupied_eq_false (h : s.anySlotOccupied = false) (k : SlotNo) :
    s.slot k = none := by
  simp only [State.anySlotOccupied, List.any_eq_false, Option.not_isSome_iff_eq_none] at h
  exact h k (List.mem_finRange k)

/-- A commit is refused, swaps the banks at once, or becomes pending (R154). -/
theorem takeCommit_effect {x : RxTelegram} (hx : s.dispatchable = some x)
    (hp : DeskKind.tableCommit.permitted s.ts.mode) :
    Effect s .tableCommit (s.freeBuffer.takeCommit x.kind) := by
  have operate : s.ts.mode ≠ .operate := by simpa [DeskKind.permitted] using hp
  unfold State.takeCommit
  split
  · exact .answered _ _ _ _ hx
  · split
    · exact .answered _ _ _ _ hx
    · next hs =>
      split
      · exact .answered _ _ _ _ hx
      · next hv =>
        split
        · next hm => exact .firstCommit x hx hm hv
        · next hm =>
          have free := State.anySlotOccupied_eq_false (s := s.freeBuffer) (by simpa using hs)
          refine .commitPending x hx ?_ free hv
          cases hmode : s.ts.mode with
          | unconfigured => exact absurd hmode hm
          | operate => exact absurd hmode operate
          | maintenance => rfl

theorem takeSubstitute_effect {x : RxTelegram} (hx : s.dispatchable = some x) (number code : Nat) :
    Effect s .substitute (s.freeBuffer.takeSubstitute x.kind number code) := by
  unfold State.takeSubstitute
  split
  · exact .answered _ _ _ _ hx
  · exact .substituted _ _ _ _ hx

theorem takeRelease_effect {x : RxTelegram} (hx : s.dispatchable = some x) (number : Nat) :
    Effect s .release (s.freeBuffer.takeRelease x.kind number) := by
  unfold State.takeRelease
  split
  · exact .answered _ _ _ _ hx
  · split
    · exact .answered _ _ _ _ hx
    · exact .released _ _ _ hx

theorem takeTraceSelect_effect {x : RxTelegram} (hx : s.dispatchable = some x) (number : Nat) :
    Effect s .traceSelectPoint (s.freeBuffer.takeTraceSelect x.kind number) := by
  unfold State.takeTraceSelect
  split
  · exact .answered _ _ _ _ hx
  · split
    · exact .traceSelected _ _ _ _ hx
    · exact .answered _ _ _ _ hx

theorem takeDiagRead_effect (c : Instr) {x : RxTelegram} (hx : s.dispatchable = some x)
    (selector count : Nat) (contents : State → Fin count → List Byte) :
    Effect s c (s.freeBuffer.takeDiagRead x selector count contents) := by
  unfold State.takeDiagRead
  dsimp only
  split
  · exact .answered _ _ _ _ hx
  · split <;> exact .answered _ _ _ _ hx

theorem execReceiveTelegram_effects {bytes : List Byte} (ht : execReceiveTelegram bytes s = .next t) :
    Effects s (.receiveTelegram bytes) t := by
  refine .of_occur ht fun u hu => ?_
  split at hu
  · cases hu
    split
    · exact .received bytes _
    · exact .crcFailed bytes
  · cases hu

theorem execIdleIntervalExpiry_effects (ht : execIdleIntervalExpiry s = .next t) :
    Effects s .idleIntervalExpiry t := by
  refine .of_occur ht fun u hu => ?_
  unfold State.idleWork at hu
  split at hu
  · split at hu
    · cases hu; exact .notIdle
    · split at hu
      · cases hu
      · split at hu
        · cases hu; exact .notIdle
        · cases hu; exact .idle
  · cases hu

theorem execKeyWithdrawal_effects {stood : Nat} (ht : execKeyWithdrawal stood s = .next t) :
    Effects s (.keyWithdrawal stood) t := by
  refine .of_occur ht fun u hu => ?_
  split at hu
  · cases hu
    split
    · next hm => exact .maintenanceLeft stood hm
    · next hm => exact .keyWithdrawn stood hm
  · cases hu

theorem execCycleStart_effects (ht : execCycleStart s = .next t) : Effects s .cycleStart t := by
  refine .of_occur ht fun u hu => ?_
  split at hu
  · split at hu
    · cases hu; exact .cycleStarted
    · split at hu
      · cases hu
      · cases hu; exact .cycleDelayed
  · cases hu

theorem execCommitSwap_effects (ht : execCommitSwap s = .next t) : Effects s .commitSwap t := by
  refine .of_occur ht fun u hu => ?_
  split at hu
  · cases hu
  · next hr =>
    cases hu
    unfold State.swapReady at hr
    split at hr
    · cases hr
    · split at hr
      · next h => exact .swapped h.2.1
      · cases hr

theorem execInputPoll_effects (ht : execInputPoll s = .next t) : Effects s .inputPoll t := by
  refine .of_occur ht fun u hu => ?_
  split at hu
  · cases hu
  · next hp =>
    cases hu
    exact .attempted _ s.slc.lineClock _ (State.ne_none_of_pollReady hp)

theorem execDrivePoll_effects (ht : execDrivePoll s = .next t) : Effects s .drivePoll t := by
  refine .of_occur ht fun u hu => ?_
  split at hu
  · cases hu
  · next hp => cases hu; exact .driven _ _ (State.ne_none_of_pollReady hp)

theorem execReplyFirstByte_effects {byte : FirstByte} (ht : execReplyFirstByte byte s = .next t) :
    Effects s (.replyFirstByte byte) t := by
  refine .of_occur ht fun u hu => ?_
  split at hu
  · cases hu
  · next hs =>
    split at hu
    · cases hu; exact .attempted _ _ _ (State.ne_none_of_scanIn hs)
    · cases hu

/-- A counter of the polled module raised, and the attempt failed (R76, R77). -/
theorem countFailure_effect (i : Instr) {line : LinePhase} {c : Cycle} {sc : Scan}
    (hs : s.scanIn line = some (c, sc)) (clock : Micros) {r : ModuleRec} (time : Time)
    (hr : (s.moduleRec sc.mod).Tallies r)
    (hm : r.missedScans = (s.moduleRec sc.mod).missedScans)
    (hl : r.lossEvents = (s.moduleRec sc.mod).lossEvents) :
    Effect s i (((s.setLineClock clock).setModuleRec sc.mod r).failAttempt c sc time) := by
  obtain ⟨new, tallies, scanned⟩ := s.countFailure_scanned clock c sc time hr hm hl
  exact .scanned i sc.mod new _ (State.ne_none_of_scanIn hs) tallies scanned

theorem ModuleRec.countTimeout_tallies (r : ModuleRec) : r.Tallies r.countTimeout :=
  { ModuleRec.Tallies.refl r with replyTimeouts := rises_bump _ }

theorem ModuleRec.countCrc_tallies (r : ModuleRec) : r.Tallies r.countCrc :=
  { ModuleRec.Tallies.refl r with crcErrors := rises_bump _ }

theorem ModuleRec.countFormat_tallies (r : ModuleRec) : r.Tallies r.countFormat :=
  { ModuleRec.Tallies.refl r with formatErrors := rises_bump _ }

theorem execReplyTimeout_effects {clock : Micros} (ht : execReplyTimeout clock s = .next t) :
    Effects s (.replyTimeout clock) t := by
  refine .of_occur ht fun u hu => ?_
  split at hu
  · cases hu
  · next hs =>
    split at hu
    · cases hu; exact countFailure_effect _ hs _ _ (ModuleRec.countTimeout_tallies _) rfl rfl
    · cases hu

theorem execReplySilence_effects {clock : Micros} (ht : execReplySilence clock s = .next t) :
    Effects s (.replySilence clock) t := by
  refine .of_occur ht fun u hu => ?_
  split at hu
  · cases hu
  · next hs =>
    split at hu
    · cases hu; exact countFailure_effect _ hs _ _ (ModuleRec.countFormat_tallies _) rfl rfl
    · cases hu

theorem takeReply_effect (i : Instr) {use : Use} {reply : Reply} {u : State}
    (hu : s.takeReply use reply = some u) : Effect s i u := by
  unfold State.takeReply at hu
  split at hu
  · cases hu
  · next c sc hs =>
    dsimp only at hu
    split at hu
    · cases hu
    · split at hu
      · cases hu; exact countFailure_effect i hs _ _ (ModuleRec.countCrc_tallies _) rfl rfl
      · cases hu; exact countFailure_effect i hs _ _ (ModuleRec.countFormat_tallies _) rfl rfl
      · split at hu
        · cases hu
          have clocked := s.recorded_setLineClock sc.mod reply.clock
          obtain ⟨new, tallies, scanned⟩ :=
            State.judgeReply_scanned (s.setLineClock reply.clock) sc.mod use (replyData reply.frame)
          exact .scanned i sc.mod new _ (State.ne_none_of_scanIn hs) (clocked.own ▸ tallies)
            (clocked.scanned_trans scanned)
        · cases hu

theorem execInputReply_effects {reply : Reply} (ht : execInputReply reply s = .next t) :
    Effects s (.inputReply reply) t :=
  .of_occur ht fun _ => takeReply_effect _

theorem execDriveReply_effects {reply : Reply} (ht : execDriveReply reply s = .next t) :
    Effects s (.driveReply reply) t :=
  .of_occur ht fun _ => takeReply_effect _

theorem execImageArrival_effects (ht : execImageArrival s = .next t) : Effects s .imageArrival t := by
  refine .of_occur ht fun u hu => ?_
  split at hu
  · cases hu
  · next hb =>
    split at hu
    · cases hu
    · next ha => cases hu; exact .arrived _ _ hb (by simpa using ha)

theorem execPulseEnd_effects {k : SlotNo} (ht : execPulseEnd k s = .next t) :
    Effects s (.pulseEnd k) t := by
  refine .of_occur ht fun u hu => ?_
  obtain ⟨⟨sl, due⟩, hd, rfl⟩ := Option.map_eq_some_iff.1 hu
  refine .pulseEnded k sl due ?_
  unfold State.pulseDue at hd
  split at hd
  · cases hd
  · next hk =>
    split at hd
    · cases hd
    · split at hd
      · cases hd; exact hk
      · cases hd

theorem execProvingDeadline_effects {k : SlotNo} (ht : execProvingDeadline k s = .next t) :
    Effects s (.provingDeadline k) t := by
  refine .of_occur ht fun u hu => ?_
  obtain ⟨⟨sl, due⟩, -, rfl⟩ := Option.map_eq_some_iff.1 hu
  exact .provingEnded k sl due

/-- After a reset the transmitter has no work (R147). -/
theorem State.takeReset_transmitNext (s : State) (key : KeyLevel) :
    (s.takeReset key).transmitNext = s.takeReset key := rfl

/-- What a command can do: RESET_ASSERTED holds the part, and every other command changes nothing or has an
effect, after which the transmitter takes its work. -/
theorem exec_effects (c : Instr) (ht : exec c s = .next t) :
    t = { s with resetHeld := true } ∨ Effects s c t := by
  cases c with
  | resetAsserted => cases ht; exact .inl rfl
  | powerOnReset key => cases ht; exact .inr (.inr ⟨_, .poweredOn key, rfl⟩)
  | receiveTelegram bytes => exact .inr (execReceiveTelegram_effects ht)
  | receiveTruncated gap => exact .inr (.of_if ht fun _ => .receiver _ _)
  | unknownKind => exact .inr (execUnknownKind_effects ht)
  | control => exact .inr (.of_dispatch ht fun _ hx _ => .control _ hx)
  | cancel => exact .inr (.of_dispatch ht fun _ hx _ => takeCancel_effect hx _)
  | interrogate => exact .inr (.of_dispatch ht fun _ hx _ => .interrogated _ hx)
  | timeSet => exact .inr (.of_dispatch ht fun _ hx _ => .timeSet _ _ hx)
  | modeRequestOperate => exact .inr (.of_dispatch ht fun _ hx _ => takeModeRequest_effect _ hx _)
  | modeRequestMaintenance =>
    exact .inr (.of_dispatch ht fun _ hx _ => takeModeRequest_effect _ hx _)
  | modeRequestNeither => exact .inr (.of_dispatch ht fun _ hx _ => takeModeRequest_effect _ hx _)
  | tableWrite => exact .inr (.of_dispatch ht fun _ hx _ => .tableWritten _ hx)
  | tableRead => exact .inr (.of_dispatch ht fun _ hx _ => takeTableRead_effect hx _)
  | tableCommit => exact .inr (.of_dispatch ht fun _ hx hp => takeCommit_effect hx hp)
  | substitute => exact .inr (.of_dispatch ht fun _ hx _ => takeSubstitute_effect hx _ _)
  | release => exact .inr (.of_dispatch ht fun _ hx _ => takeRelease_effect hx _)
  | traceSelectPoint => exact .inr (.of_dispatch ht fun _ hx _ => takeTraceSelect_effect hx _)
  | traceSelectNone => exact .inr (.of_dispatch ht fun _ hx _ => .traceSelected _ _ _ _ hx)
  | counterClear => exact .inr (.of_dispatch ht fun _ hx _ => .countersCleared _ hx)
  | restart => exact .inr (.of_dispatch ht fun _ hx _ => .restartBegun _ hx)
  | restartReset key => exact .inr (.of_if ht fun _ => .restarted key)
  | diagReadPoint => exact .inr (.of_dispatch ht fun _ hx _ => takeDiagRead_effect _ hx _ _ _)
  | diagReadGroup => exact .inr (.of_dispatch ht fun _ hx _ => takeDiagRead_effect _ hx _ _ _)
  | diagReadModule => exact .inr (.of_dispatch ht fun _ hx _ => takeDiagRead_effect _ hx _ _ _)
  | diagReadSlot => exact .inr (.of_dispatch ht fun _ hx _ => takeDiagRead_effect _ hx _ _ _)
  | diagReadPart =>
    refine .inr (.of_dispatch ht fun _ hx _ => ?_)
    split <;> exact .answered _ _ _ _ hx
  | transmitEnd => exact .inr (.of_if ht fun _ => .transmitted)
  | idleIntervalExpiry => exact .inr (execIdleIntervalExpiry_effects ht)
  | deskSilenceExpiry => exact .inr (.of_if ht fun _ => .silenceExpired _)
  | keyWithdrawal stood => exact .inr (execKeyWithdrawal_effects ht)
  | keyPresented stood => exact .inr (.of_if ht fun _ => .keyPresented stood)
  | cycleStart => exact .inr (execCycleStart_effects ht)
  | commitSwap => exact .inr (execCommitSwap_effects ht)
  | inputPoll => exact .inr (execInputPoll_effects ht)
  | drivePoll => exact .inr (execDrivePoll_effects ht)
  | replyTimeout clock => exact .inr (execReplyTimeout_effects ht)
  | replySilence clock => exact .inr (execReplySilence_effects ht)
  | inputReply reply => exact .inr (execInputReply_effects ht)
  | driveReply reply => exact .inr (execDriveReply_effects ht)
  | imageArrival => exact .inr (execImageArrival_effects ht)
  | pulseEnd k => exact .inr (execPulseEnd_effects ht)
  | provingDeadline k => exact .inr (execProvingDeadline_effects ht)
  | receiveOverlong length => exact .inr (.of_if ht fun _ => .receiver _ _)
  | syncByte => exact .inr (.of_if ht fun _ => .receiver _ _)
  | replyFirstByte byte => exact .inr (execReplyFirstByte_effects ht)

end Commands

/-! ### What a step does -/

/-- Every step from a state with `P` leads to one with `Q`, because everything that a step is made of does: a
command leaving the queue, RESET held low, an effect of a command, the transmitter's work after it, the AGE
finishing, the moment of an expiry ending, and a millisecond passing. With `P` for `Q` it is an invariant. -/
structure StepsLead (P Q : State → Prop) : Prop where
  queue : ∀ s rest, P s → P { s with pending := rest }
  nothing : ∀ s, P s → Q s
  held : ∀ s, P s → Q { s with resetHeld := true }
  effect : ∀ s c u, P s → Effect s c u → Q u
  transmit : ∀ s, Q s → Q s.transmitNext
  finish : ∀ s, P s → Q s.ageFinish
  expiryOver : ∀ s, P s → Q { s with dli := { s.dli with expiryOpen := false } }
  tick : ∀ s, P s → Q s.tick

theorem StepsLead.exec {P Q : State → Prop} (h : StepsLead P Q) {c : Instr} {s t : State} (hs : P s)
    (ht : exec c s = .next t) : Q t := by
  rcases exec_effects c ht with rfl | rfl | ⟨u, hu, rfl⟩
  · exact h.held s hs
  · exact h.nothing _ hs
  · exact h.transmit u (h.effect s c u hs hu)

theorem StepsLead.unfinished {P Q : State → Prop} (h : StepsLead P Q) {s t : State} (hs : P s)
    (ht : s.unfinished = some t) : Q t := by
  unfold State.unfinished at ht
  split at ht
  · cases ht
  · split at ht
    · cases ht; exact h.transmit _ (h.finish s hs)
    · split at ht
      · cases ht; exact h.transmit _ (h.expiryOver s hs)
      · cases ht

theorem StepsLead.step {P Q : State → Prop} (h : StepsLead P Q) {s t : State} (hs : P s)
    (ht : step s = .next t) : Q t := by
  rcases step_cases ht with ⟨c, rest, -, hc⟩ | ⟨-, hu | ⟨-, ⟨c, -, hc⟩ | ⟨-, rfl⟩⟩⟩
  · exact h.exec (h.queue s rest hs) hc
  · exact h.unfinished hs hu
  · exact h.exec hs hc
  · exact h.tick s hs

/-! ### What the shared operations leave of the blocks that the invariants speak of -/

variable (s : State)

theorem State.noAnswer_of_dispatchable {s : State} {x : RxTelegram} (h : s.dispatchable = some x) :
    s.dli.answers = [] := by
  unfold State.dispatchable at h
  split at h
  · next hc => simp only [Bool.and_eq_true, List.isEmpty_iff] at hc; exact hc.1
  · cases h

/-- A command accepted occupies a slot and sets a code; one that is not hands a record (R105, R106). -/
theorem State.takeControl_cases (c : ControlNo) :
    Orderly s (s.takeControl c) ∨
    (s.configured = true ∧ s.ts.commitPending = false ∧
      Frame [.slots, .channels] s (s.takeControl c)) := by
  unfold State.takeControl
  split
  · exact .inl (s.hand_orderly _ _)
  · next k hk =>
    refine .inr ?_
    unfold State.judgeControl at hk
    dsimp only at hk
    split at hk
    · cases hk
    · next hc =>
      split at hk
      · cases hk
      · next hp =>
        refine ⟨by simpa using hc, by simpa using hp, ?_⟩
        exact ((s.setSlot_frame _ _).mono (by decide)).trans
          ((State.setCode_frame _ _ _ _).mono (by decide))

/-- An accepted image is evaluated in orderly work on points, its bank is freed, and its hand-over made (R9,
R11). -/
theorem State.takeArrival_cases (arr : BankImage) (rest : List BankImage) :
    ∃ (v : State) (h : HandOver), Orderly s v ∧ Frame pointBlocks s v ∧
      s.takeArrival arr rest = ({ v with slc := { v.slc with banks := rest } } : State).handOver h :=
  ⟨_, _, Orderly.foldl (fun s p => s.arriveAt_orderly arr p) _ s,
    Frame.foldl _ (fun s p => s.arriveAt_frame arr p) _ s, rfl⟩

/-! ### The swap, block by block (R155) -/

theorem State.swapGrid_slc (first : Bool) (old new : Tables) : ∃ origin due late,
    (s.swapGrid first old new).slc =
      { s.slc with gridOrigin := origin, nextDue := due, lateWaiting := late } := by
  unfold State.swapGrid
  split
  · exact ⟨_, _, _, rfl⟩
  · split
    · exact ⟨_, _, _, rfl⟩
    · exact ⟨s.slc.gridOrigin, s.slc.nextDue, s.slc.lateWaiting, rfl⟩

theorem State.swapSilence_dli (first : Bool) (old new : Tables) :
    ∃ start, (s.swapSilence first old new).dli = { s.dli with silenceStart := start } := by
  unfold State.swapSilence
  split
  · exact ⟨_, rfl⟩
  · exact ⟨s.dli.silenceStart, rfl⟩

theorem State.swapMode_ts (first : Bool) :
    (s.swapMode first).ts = if first then { s.ts with mode := .operate } else s.ts := by
  unfold State.swapMode
  split <;> rfl

/-- The steps of the swap after the comparison of the banks: grid, silence timer, refresh and mode. -/
def State.swapRest (first : Bool) (old new : Tables) : State :=
  (((s.swapGrid first old new).swapSilence first old new).startRefresh).swapMode first

theorem State.swap_eq : s.swap = (s.swapBanks.swapRecords s.ts.active s.ts.shadow).swapRest
    (!s.configured) s.ts.active s.ts.shadow := rfl

section Rest

variable (first : Bool) (old new : Tables)

theorem State.swapRest_ts : (s.swapRest first old new).ts =
    if first then { s.ts with mode := .operate } else s.ts := by
  have before : ((s.swapGrid first old new).swapSilence first old new).startRefresh.ts = s.ts :=
    ((State.swapSilence_frame _ _ _ _).blocks .ts (by decide)).trans
      ((s.swapGrid_frame _ _ _).blocks .ts (by decide))
  unfold State.swapRest
  rw [State.swapMode_ts, before]

theorem State.swapRest_slc : ∃ origin due late, (s.swapRest first old new).slc =
    { s.slc with gridOrigin := origin, nextDue := due, lateWaiting := late } := by
  obtain ⟨origin, due, late, grid⟩ := s.swapGrid_slc first old new
  have silence := (State.swapSilence_frame (s.swapGrid first old new) first old new).blocks .slc
    (by decide)
  exact ⟨origin, due, late,
    ((State.swapMode_frame _ first).blocks .slc (by decide)).trans (silence.trans grid)⟩

theorem State.swapRest_dli : ∃ start,
    (s.swapRest first old new).dli = { s.dli with silenceStart := start } := by
  obtain ⟨start, silence⟩ := (s.swapGrid first old new).swapSilence_dli first old new
  have grid := (s.swapGrid_frame first old new).blocks .dli (by decide)
  exact ⟨start, ((State.swapMode_frame _ first).blocks .dli (by decide)).trans
    (silence.trans (congrArg (fun d => { d with silenceStart := start }) grid))⟩

theorem State.swapRest_cq :
    (s.swapRest first old new).cq = { s.cq with cursor := some (.points 0) } := by
  have grid := (s.swapGrid_frame first old new).blocks .cq (by decide)
  have silence := (State.swapSilence_frame (s.swapGrid first old new) first old new).blocks .cq
    (by decide)
  exact ((State.swapMode_frame _ first).blocks .cq (by decide)).trans
    (congrArg (fun q => { q with cursor := some (Cursor.points 0) }) (silence.trans grid))

end Rest

/-- SHADOW's content is in force, no commit is pending, and the part is configured. -/
theorem State.swap_ts : s.swap.ts = { s.ts with
    active := s.ts.shadow, commitPending := false
    mode := if s.configured then s.ts.mode else .operate } := by
  rw [State.swap_eq, State.swapRest_ts]
  cases s.configured <;> rfl

/-- The module records and the grid change, and nothing else of the SLC. -/
theorem State.swap_slc : ∃ origin due late, s.swap.slc = { s.slc with
    modules := Table.tabulate .init fun m =>
      swapModule s.ts.active s.ts.shadow m (s.moduleRec m)
    gridOrigin := origin, nextDue := due, lateWaiting := late } :=
  State.swapRest_slc _ _ _ _

/-- COMMITTED joins the answers, and the silence timer may restart. -/
theorem State.swap_dli : ∃ start, s.swap.dli = { s.dli with
    answers := s.dli.answers ++ [⟨DeskKind.tableCommit.byte, .committed, []⟩]
    silenceStart := start } :=
  State.swapRest_dli _ _ _ _

theorem State.swap_cq : s.swap.cq = { s.cq with cursor := some (.points 0) } :=
  State.swapRest_cq _ _ _ _

end Sys2Proof.Machine

/-! PROOFS. Every step keeps the capacities (R73, R124, R131, R136, R141). -/

namespace Sys2Proof.Machine

/-! ### The System Record is written within its ranges (R149 to R151) -/

theorem clamp_range (lo hi v : Nat) (h : lo ≤ hi) :
    lo ≤ (clamp lo hi v).1 ∧ (clamp lo hi v).1 ≤ hi :=
  ⟨le_min (le_max_right _ _) h, min_le_right _ _⟩

theorem clampSilence_range (v : Nat) :
    (clampSilence v).1 = 0 ∨ (500 ≤ (clampSilence v).1 ∧ (clampSilence v).1 ≤ 30000) := by
  unfold clampSilence
  split
  · exact .inl rfl
  · split
    · exact .inl rfl
    · split
      · exact .inr (by decide)
      · split
        · exact .inr (by decide)
        · exact .inr (by dsimp only; omega)

theorem SystemRecord.parse_inRange {b : List Byte} {r : SystemRecord} {c : Bool}
    (h : SystemRecord.parse b = some (r, c)) : r.inRange = true := by
  obtain ⟨rfl, -⟩ := Prod.mk.inj (Option.some.inj h)
  have period := clamp_range 4 50 (num16 b 0) (by decide)
  have window := clamp_range 100 2000 (num16 b 2) (by decide)
  have retries := clamp_range 0 3 (num16 b 4) (by decide)
  have threshold := clamp_range 1 15 (num16 b 6) (by decide)
  have recovery := clamp_range 1 15 (num16 b 8) (by decide)
  have settle := clamp_range 20 1000 (num16 b 10) (by decide)
  have silence := clampSilence_range (num16 b 12)
  have idle := clamp_range 200 5000 (num16 b 14) (by decide)
  have watermark := clamp_range 16 248 (num16 b 16) (by decide)
  simp [SystemRecord.inRange, period, window, retries, threshold, recovery, settle, silence, idle,
    watermark]

/-- Every entry of a run that could be read was read (R150). -/
theorem parseEntries_forall {α : Type} {parse : List Byte → Option (α × Bool)} {p : α → Prop}
    (hp : ∀ b e c, parse b = some (e, c) → p e) (size : Nat) {k : Nat} {bytes : List Byte}
    {es : List α} {c : Bool} (h : parseEntries parse size k bytes = some (es, c)) :
    ∀ e ∈ es, p e := by
  induction k generalizing bytes es c with
  | zero => cases h; exact nofun
  | succ k ih =>
    unfold parseEntries at h
    split at h
    · next he hes =>
      cases h
      exact List.forall_mem_cons.2 ⟨hp _ _ _ he, ih hes⟩
    · cases h

theorem Tables.write_system {b b' : Tables} {table : TableId} {first count : Nat}
    {data : List Byte} {c : Bool} (h : b.write table first count data = some (b', c))
    (hb : b.system.inRange = true) : b'.system.inRange = true := by
  cases table with
  | system =>
    obtain ⟨⟨es, c'⟩, hes, h⟩ := Option.map_eq_some_iff.1 h
    cases h
    have read := parseEntries_forall (p := fun r => r.inRange = true)
      (fun _ _ _ => SystemRecord.parse_inRange) _ hes
    rcases List.eq_nil_or_concat es with rfl | ⟨l, e, rfl⟩
    · exact hb
    · simpa using read e (by simp)
  | moduleMap | points | groups | patterns | commands =>
    obtain ⟨⟨es, c'⟩, -, h⟩ := Option.map_eq_some_iff.1 h
    cases h
    exact hb

/-- A TABLE_WRITE leaves SHADOW alone, while no commit is pending writes entries to it, and otherwise is
refused (R150). -/
theorem State.writeTable_cases (s : State) (body : List Byte) :
    (s.writeTable body).2.1 = s.ts.shadow ∨
    (s.ts.commitPending = false ∧ ∃ table first count data c,
      s.ts.shadow.write table first count data = some ((s.writeTable body).2.1, c)) := by
  unfold State.writeTable
  dsimp only
  split
  · exact .inl rfl
  · next hp =>
    split
    · exact .inl rfl
    · split
      · exact .inl rfl
      · split
        · exact .inl rfl
        · next hw => exact .inr ⟨by simpa using hp, _, _, _, _, _, hw⟩

/-! ### What keeps the capacities -/

theorem SystemRecord.watermark_le {r : SystemRecord} (h : r.inRange = true) : r.watermark ≤ 256 := by
  simp only [SystemRecord.inRange, Bool.and_eq_true, decide_eq_true_eq] at h
  omega

/-- The answers in the list with the place kept for a commit's deferred answer (R141). -/
def State.answerLoad (s : State) : Nat :=
  s.dli.answers.length + if s.ts.commitPending then 1 else 0

theorem State.answerLoad_answer (s : State) (request : Byte) (status : AnswerStatus)
    (payload : List Byte) : (s.answer request status payload).answerLoad = s.answerLoad + 1 := by
  simp only [State.answerLoad, State.answer_dli, State.answer_ts, List.length_append,
    List.length_singleton]
  exact Nat.add_right_comm _ _ _

section Capacities

variable {s t : State}

/-- Orderly work that keeps the DLI's state keeps the capacities. -/
theorem State.WithinCapacity.orderly (h : s.WithinCapacity) (ho : Orderly s t)
    (hb : s.slc.banks.length ≤ 2 → t.slc.banks.length ≤ 2) (hd : t.dli = s.dli) :
    t.WithinCapacity where
  queue := ho.fits (SystemRecord.watermark_le h.activeSystem) h.queue
  banks := hb h.banks
  buffers := hd ▸ h.buffers
  answers := by rw [hd, ho.ts]; exact h.answers
  indication := by rw [hd]; exact h.indication
  arrivals := ho.arrivals.trans h.arrivals
  activeSystem := ho.ts ▸ h.activeSystem
  shadowSystem := ho.ts ▸ h.shadowSystem

/-- What touches none of the holding places keeps the capacities. -/
theorem State.WithinCapacity.frame {l : List Block} (h : s.WithinCapacity) (hf : Frame l s t)
    (hts : .ts ∉ l := by decide) (hslc : .slc ∉ l := by decide) (hage : .age ∉ l := by decide)
    (hcq : .cq ∉ l := by decide) (hdli : .dli ∉ l := by decide) : t.WithinCapacity := by
  have ts : t.ts = s.ts := hf.blocks .ts hts
  have slc : t.slc = s.slc := hf.blocks .slc hslc
  have age : t.age = s.age := hf.blocks .age hage
  have cq : t.cq = s.cq := hf.blocks .cq hcq
  have dli : t.dli = s.dli := hf.blocks .dli hdli
  exact ⟨by rw [cq]; exact h.queue, by rw [slc]; exact h.banks, by rw [dli]; exact h.buffers,
    by rw [dli, ts]; exact h.answers, by rw [dli]; exact h.indication, by rw [age]; exact h.arrivals,
    by rw [ts]; exact h.activeSystem, by rw [ts]; exact h.shadowSystem⟩

/-- Orderly work outside the SLC and the DLI. -/
theorem State.WithinCapacity.work {l : List Block} (h : s.WithinCapacity) (ho : Orderly s t)
    (hf : Frame l s t) (hslc : .slc ∉ l := by decide) (hdli : .dli ∉ l := by decide) :
    t.WithinCapacity :=
  h.orderly ho (fun hb => (congrArg (fun x => x.banks.length) (hf.blocks .slc hslc)).trans_le hb)
    (hf.blocks .dli hdli)

theorem State.WithinCapacity.answer (h : s.WithinCapacity) (hl : s.answerLoad ≤ 1) (request : Byte)
    (status : AnswerStatus) (payload : List Byte := []) :
    (s.answer request status payload).WithinCapacity :=
  { h with
    answers := (s.answerLoad_answer request status payload).trans_le (Nat.succ_le_succ hl) }

theorem State.WithinCapacity.freeBuffer (h : s.WithinCapacity) : s.freeBuffer.WithinCapacity :=
  { h with
    buffers := by
      have := h.buffers
      simp only [State.freeBuffer_dli, List.length_tail]
      omega }

/-- A dispatched telegram leaves room for its answer, beside a commit's (R137, R141). -/
theorem State.answerLoad_freeBuffer {x : RxTelegram} (hx : s.dispatchable = some x) :
    s.freeBuffer.answerLoad ≤ 1 := by
  unfold State.answerLoad
  rw [State.freeBuffer_dli, State.freeBuffer_ts]
  simp only [State.noAnswer_of_dispatchable hx, List.length_nil]
  split <;> decide

theorem State.answerLoad_eq {l : List Block} (hf : Frame l s t) (hts : .ts ∉ l := by decide)
    (hdli : .dli ∉ l := by decide) : t.answerLoad = s.answerLoad := by
  unfold State.answerLoad
  rw [hf.blocks .dli hdli, hf.blocks .ts hts]

/-- A dispatched telegram's orderly work, and its answer. -/
theorem State.WithinCapacity.answer_work {l : List Block} {x : RxTelegram} (h : s.WithinCapacity)
    (hx : s.dispatchable = some x) (ho : Orderly s.freeBuffer t) (hf : Frame l s.freeBuffer t)
    (request : Byte) (status : AnswerStatus) (payload : List Byte)
    (hts : .ts ∉ l := by decide) (hslc : .slc ∉ l := by decide) (hdli : .dli ∉ l := by decide) :
    (t.answer request status payload).WithinCapacity :=
  (h.freeBuffer.work ho hf hslc hdli).answer
    ((State.answerLoad_eq hf hts hdli).trans_le (State.answerLoad_freeBuffer hx)) _ _ _

/-- The answer of a commit withdrawn takes the place kept for it (R141, R157). -/
theorem State.WithinCapacity.leaveMaintenance (h : s.WithinCapacity) :
    s.leaveMaintenance.WithinCapacity ∧ s.leaveMaintenance.answerLoad = s.answerLoad := by
  have hl := h.answers
  unfold State.leaveMaintenance State.withdrawCommit
  split
  · next hp =>
    have hp : s.ts.commitPending = true := hp
    refine ⟨?_, ?_⟩
    · refine State.WithinCapacity.orderly ?_ (State.endHold_frame _).orderly
        (fun hb => (congrArg List.length (State.endHold_banks _)).trans_le hb)
        ((State.endHold_frame _).blocks .dli (by decide))
      exact { h with
        answers := by
          simp only [hp, if_true] at hl
          simpa using hl }
    · rw [State.answerLoad_eq (State.endHold_frame _)]
      simp [State.answerLoad, hp]
  · exact ⟨{ h with }, rfl⟩

theorem State.WithinCapacity.requestMode (h : s.WithinCapacity) {named : Nat}
    (ht : s.requestMode named = some t) : t.WithinCapacity ∧ t.answerLoad = s.answerLoad := by
  unfold State.requestMode at ht
  split at ht
  · cases ht; exact ⟨h, rfl⟩
  · cases ht; exact h.leaveMaintenance
  · split at ht
    · cases ht; exact ⟨{ h with }, rfl⟩
    · cases ht
  · split at ht
    · cases ht; exact ⟨h, rfl⟩
    · cases ht
  · cases ht

theorem State.WithinCapacity.takeTableWrite (h : s.WithinCapacity) (hl : s.answerLoad ≤ 1)
    (request : Byte) (body : List Byte) : (s.takeTableWrite request body).WithinCapacity := by
  have written : (s.writeTable body).2.1.system.inRange = true := by
    rcases s.writeTable_cases body with e | ⟨-, _, _, _, _, _, hw⟩
    · rw [e]; exact h.shadowSystem
    · exact Tables.write_system hw h.shadowSystem
  exact State.WithinCapacity.answer
    (s := { s with ts := { s.ts with shadow := (s.writeTable body).2.1 } })
    { h with shadowSystem := written } hl _ _ _

/-- COMMITTED takes the place kept for it (R141, R155). -/
theorem State.WithinCapacity.swap (h : s.WithinCapacity) (hl : s.dli.answers.length ≤ 1) :
    s.swap.WithinCapacity := by
  obtain ⟨_, _, _, slc⟩ := s.swap_slc
  obtain ⟨_, dli⟩ := s.swap_dli
  have age := s.swap_frame.blocks .age (by decide)
  exact
  { queue := by rw [s.swap_cq]; exact h.queue
    banks := by rw [slc]; exact h.banks
    buffers := by rw [dli]; exact h.buffers
    answers := by rw [dli, s.swap_ts]; simpa using hl
    indication := by rw [dli]; exact h.indication
    arrivals := by rw [age]; exact h.arrivals
    activeSystem := by rw [s.swap_ts]; exact h.shadowSystem
    shadowSystem := by rw [s.swap_ts]; exact h.shadowSystem }

theorem State.WithinCapacity.endHold (h : s.WithinCapacity) : s.endHold.WithinCapacity :=
  h.orderly s.endHold_frame.orderly (fun hb => (congrArg List.length s.endHold_banks).trans_le hb)
    (s.endHold_frame.blocks .dli (by decide))

/-- The hand-over of an arrival is the only one of its kind (R58). -/
theorem State.WithinCapacity.takeArrival (h : s.WithinCapacity) {arr : BankImage}
    {rest : List BankImage} (hb : s.slc.banks = arr :: rest) (ha : s.arrivalUnfinished = false) :
    (s.takeArrival arr rest).WithinCapacity := by
  obtain ⟨v, w, evaluated, frame, e⟩ := s.takeArrival_cases arr rest
  have hv := h.work evaluated frame
  have age := frame.blocks .age (by decide)
  have none_left : s.age.handOvers.filter HandOver.arrival = [] := by
    simpa [State.arrivalUnfinished] using ha
  rw [e]
  obtain ⟨pace, worked, age_frame⟩ :=
    State.handOver_cases ({ v with slc := { v.slc with banks := rest } } : State) w
  refine State.WithinCapacity.work ?_ worked age_frame
  exact { hv with
    banks := by
      have := h.banks
      rw [hb, List.length_cons] at this
      exact Nat.le_of_succ_le this
    arrivals := by
      show ((v.age.handOvers ++ [w]).filter HandOver.arrival).length ≤ 1
      rw [age, List.filter_append, none_left, List.nil_append]
      exact List.length_filter_le _ _ }

theorem State.refreshRecords_length (s : State) (room : Nat) (c : Option Cursor) :
    (s.refreshRecords room c).1.length ≤ room := by
  induction room generalizing c with
  | zero => exact le_rfl
  | succ room ih =>
    cases c with
    | none => exact Nat.zero_le _
    | some c => exact Nat.succ_le_succ (ih _)

/-- An INDICATION takes at most 16 records, those drawn first (R131). -/
theorem State.WithinCapacity.assemble (h : s.WithinCapacity) : s.assemble.WithinCapacity :=
  { h with
    queue := by
      show (s.cq.queue.drop Config.recordsPerIndication).length ≤ 256
      rw [List.length_drop]
      exact (Nat.sub_le _ _).trans h.queue
    indication := by
      intro header records e
      cases e
      have := s.refreshRecords_length
        (Config.recordsPerIndication - (s.cq.queue.take Config.recordsPerIndication).length)
        s.cq.cursor
      refine ⟨?_, rfl⟩
      simp only [Config.recordsPerIndication, List.length_take, List.length_append] at this ⊢
      omega }

theorem State.WithinCapacity.transmitNext (h : s.WithinCapacity) : s.transmitNext.WithinCapacity := by
  rcases s.transmitNext_cases with e | ⟨a, rest, -, ha, e⟩ | ⟨-, -, -, -, -, e⟩
  · rw [e]; exact h
  · rw [e]
    exact { h with
      answers := by
        have := h.answers
        rw [ha, List.length_cons] at this
        dsimp only
        omega
      indication := nofun }
  · rw [e]; exact h.assemble

theorem State.WithinCapacity.receiveValid (h : s.WithinCapacity) (x : RxTelegram) :
    (s.receiveValid x).WithinCapacity := by
  unfold State.receiveValid Config.receiveBuffers
  dsimp only
  split
  · next hlt => exact { h with buffers := by simpa using hlt }
  · exact { h with }

theorem State.takeReset_withinCapacity (s : State) (key : KeyLevel) :
    (s.takeReset key).WithinCapacity :=
  { State.reset_withinCapacity with }

/-- Every effect of a command keeps the capacities. -/
theorem Effect.withinCapacity {c : Instr} {u : State} (h : s.WithinCapacity) (hu : Effect s c u) :
    u.WithinCapacity := by
  cases hu with
  | poweredOn key => exact s.takeReset_withinCapacity key
  | restarted key => exact s.takeReset_withinCapacity key
  | receiver _ r => exact { h with }
  | received _ x => exact State.WithinCapacity.receiveValid (s := s.setReceiver .hunting) { h with } x
  | crcFailed => exact { h with }
  | answered _ x _ _ hx => exact h.freeBuffer.answer (State.answerLoad_freeBuffer hx) _ _ _
  | control x hx =>
    have frame := s.freeBuffer.takeControl_frame (controlOf x.body)
    rcases s.freeBuffer.takeControl_cases (controlOf x.body) with ho | ⟨-, -, hf⟩
    · exact h.freeBuffer.work ho frame
    · exact h.freeBuffer.frame hf
  | cancelled x k sl _ hx =>
    exact h.answer_work hx (s.freeBuffer.cancelSlot_orderly k sl s.now)
      (s.freeBuffer.cancelSlot_frame k sl s.now) _ _ _
  | interrogated x hx => 
    exact State.WithinCapacity.answer (s := s.freeBuffer.startRefresh) { h.freeBuffer with }
      (State.answerLoad_freeBuffer (s := s) hx) _ _ _
  | timeSet x desk hx =>
    exact State.WithinCapacity.answer (s := s.freeBuffer.setDeskTime desk x.received)
      { h.freeBuffer with } (State.answerLoad_freeBuffer (s := s) hx) _ _ _
  | modeRequested _ x _ _ _ hx hv =>
    obtain ⟨kept, load⟩ := h.freeBuffer.requestMode hv
    exact kept.answer (load.trans_le (State.answerLoad_freeBuffer hx)) _ _ _
  | tableWritten x hx => exact h.freeBuffer.takeTableWrite (State.answerLoad_freeBuffer hx) _ _
  | firstCommit x hx =>
    exact h.freeBuffer.swap (by simp [State.noAnswer_of_dispatchable hx])
  | commitPending x hx =>
    exact { h.freeBuffer with answers := by simp [State.noAnswer_of_dispatchable hx] }
  | substituted x p v _ hx =>
    exact h.answer_work hx (s.freeBuffer.imposeSubstitute_orderly p v)
      (s.freeBuffer.imposeSubstitute_frame p v) _ _ _
  | released x p _ hx =>
    exact h.answer_work hx (s.freeBuffer.removeSubstitute_orderly p)
      (s.freeBuffer.removeSubstitute_frame p) _ _ _
  | traceSelected _ x p _ hx =>
    exact State.WithinCapacity.answer (s := s.freeBuffer.selectTrace p) { h.freeBuffer with }
      (State.answerLoad_freeBuffer (s := s) hx) _ _ _
  | countersCleared x hx =>
    exact State.WithinCapacity.answer (s := s.freeBuffer.clearCounters) { h.freeBuffer with }
      (State.answerLoad_freeBuffer (s := s) hx) _ _ _
  | restartBegun x hx =>
    have answered := h.freeBuffer.answer (State.answerLoad_freeBuffer hx) x.kind .accepted
    exact { answered with }
  | transmitted => exact { h with indication := nofun }
  | notIdle => exact h
  | idle => exact { h with indication := by intro _ _ e; cases e; exact ⟨Nat.zero_le _, rfl⟩ }
  | silenceExpired e =>
    exact State.WithinCapacity.work (s := { s with dli := { s.dli with
      linkSilent := true, silenceEvents := bump s.dli.silenceEvents, expiryOpen := true } })
      { h with } (State.csuSilence_orderly _ e) (State.csuSilence_frame _ e)
  | keyWithdrawn => exact { h with }
  | maintenanceLeft =>
    exact (State.WithinCapacity.leaveMaintenance (s := s.setKey .withdrawn) { h with }).1
  | keyPresented => exact { h with }
  | cycleStarted =>
    exact h.orderly (s.startCycle_frame false).orderly
      (fun hb => (congrArg List.length (s.startCycle_banks false)).trans_le hb)
      ((s.startCycle_frame false).blocks .dli (by decide))
  | cycleDelayed => exact { h with }
  | swapped hp =>
    exact (h.swap (by have := h.answers; simp only [hp, if_true] at this; omega)).endHold
  | attempted => exact { h with }
  | driven m =>
    have sent := h.work (s.recordSentCodes_orderly m) (s.recordSentCodes_frame m)
    exact { sent with }
  | scanned _ m new u _ _ hs => exact h.orderly hs.orderly hs.banks (hs.frame.blocks .dli (by decide))
  | arrived arr rest hb ha => exact h.takeArrival hb ha
  | pulseEnded k sl due hk =>
    exact h.work (s.endPulse_orderly (by simp [hk]) sl due) (s.endPulse_frame k sl due)
  | provingEnded k sl due => exact h.work (s.endProving_orderly k sl due) (s.endProving_frame k sl due)

theorem stepsLead_withinCapacity : StepsLead State.WithinCapacity State.WithinCapacity where
  queue _ _ h := { h with }
  nothing _ h := h
  held _ h := { h with }
  effect _ _ _ h hu := hu.withinCapacity h
  transmit _ h := h.transmitNext
  finish s h := h.work s.ageFinish_orderly s.ageFinish_frame
  expiryOver _ h := { h with }
  tick s h := by
    unfold State.tick
    split
    · exact h
    · exact { h with }

/-! ### The AGE in step with the events (log entry 11) -/

theorem State.takeReset_age (h : s.AgeInStep) (key : KeyLevel) : (s.takeReset key).age = s.age := by
  show ({ handOvers := [], pace := s.age.pace } : AgeWork) = s.age
  rw [← h.finished]

/-- A dispatched telegram's orderly work, and its answer, leave the AGE in step. -/
theorem State.AgeInStep.answer_work (h : s.AgeInStep) (ho : Orderly s.freeBuffer t) (request : Byte)
    (status : AnswerStatus) (payload : List Byte) : (t.answer request status payload).age = s.age :=
  ho.inStep (h.of_age rfl)

theorem State.requestMode_age {named : Nat} (ht : s.requestMode named = some t) : t.age = s.age := by
  unfold State.requestMode at ht
  split at ht
  · cases ht; rfl
  · cases ht; exact s.leaveMaintenance_frame.blocks .age (by decide)
  · split at ht
    · cases ht; rfl
    · cases ht
  · split at ht
    · cases ht; rfl
    · cases ht
  · cases ht

/-- No effect of a command leaves the AGE behind the events. -/
theorem Effect.age_eq {c : Instr} {u : State} (h : s.AgeInStep) (hu : Effect s c u) :
    u.age = s.age := by
  cases hu with
  | poweredOn key => exact State.takeReset_age h key
  | restarted key => exact State.takeReset_age h key
  | control x hx => exact (s.freeBuffer.takeControl_frame (controlOf x.body)).blocks .age (by decide)
  | cancelled x k sl _ hx => exact h.answer_work (s.freeBuffer.cancelSlot_orderly k sl s.now) _ _ _
  | modeRequested _ x _ _ _ _ hv => have := State.requestMode_age hv; exact this
  | firstCommit => exact s.freeBuffer.swap_frame.blocks .age (by decide)
  | substituted x p v _ _ => exact h.answer_work (s.freeBuffer.imposeSubstitute_orderly p v) _ _ _
  | released x p _ _ => exact h.answer_work (s.freeBuffer.removeSubstitute_orderly p) _ _ _
  | silenceExpired e => exact (State.csuSilence_frame _ e).blocks .age (by decide)
  | maintenanceLeft => exact (State.leaveMaintenance_frame _).blocks .age (by decide)
  | cycleStarted => exact (s.startCycle_frame false).blocks .age (by decide)
  | swapped =>
    exact ((State.endHold_frame _).blocks .age (by decide)).trans
      (s.swap_frame.blocks .age (by decide))
  | driven m => exact (s.recordSentCodes_frame m).blocks .age (by decide)
  | scanned _ _ _ _ _ _ hs => exact hs.orderly.inStep h
  | arrived arr rest _ _ =>
    obtain ⟨v, w, evaluated, -, e⟩ := s.takeArrival_cases arr rest
    have kept : v.age = s.age := evaluated.inStep h
    rw [e]
    exact (State.handOver_inStep ({ v with slc := { v.slc with banks := rest } } : State) w
      (h.of_age kept)).trans kept
  | pulseEnded k sl due _ => exact (s.endPulse_frame k sl due).blocks .age (by decide)
  | provingEnded k sl due => exact (s.endProving_frame k sl due).blocks .age (by decide)
  | receiver | received | crcFailed | answered | interrogated | timeSet | tableWritten | commitPending
  | traceSelected | countersCleared | restartBegun | transmitted | notIdle | idle | keyWithdrawn
  | keyPresented | cycleDelayed | attempted => rfl

theorem stepsLead_ageInStep : StepsLead State.AgeInStep State.AgeInStep where
  queue _ _ h := h.of_age rfl
  nothing _ h := h
  held _ h := h.of_age rfl
  effect _ _ _ h hu := h.of_age (hu.age_eq h)
  transmit s h := h.of_age (s.transmitNext_frame.blocks .age (by decide))
  finish s h := h.of_age (s.ageFinish_orderly.inStep h)
  expiryOver _ h := h.of_age rfl
  tick s h := h.of_age <| by
    unfold State.tick
    split <;> rfl

end Capacities

/-- Settles O54: each thing that a step is made of keeps the capacities, and leaves an AGE in step with the
events in step. -/
theorem everyStepKeepsTheCapacities : Obligations.EveryStepKeepsTheCapacities :=
  fun _ _ ht => ⟨fun h => stepsLead_withinCapacity.step h ht, fun h => stepsLead_ageInStep.step h ht⟩

end Sys2Proof.Machine

/-! PROOFS. Every step keeps the counters bounded, and no command but COUNTER_CLEAR and a reset lets one fall
(R89, R90). -/

namespace Sys2Proof.Machine

/-- Each counter of the part rises at most once, but QUEUE_OVERFLOWS, which rises within its limit; and the
two counts of every module stay within theirs (R67, R89). -/
structure State.Tallies (s t : State) : Prop where
  modules : ∀ m, (s.moduleRec m).Tallies (t.moduleRec m)
  cycleOverruns : Rises s.slc.cycleOverruns t.slc.cycleOverruns
  crcErrors : Rises s.dli.crcErrors t.dli.crcErrors
  rxOverruns : Rises s.dli.rxOverruns t.dli.rxOverruns
  silenceEvents : Rises s.dli.silenceEvents t.dli.silenceEvents
  overflowsRise : s.cq.queueOverflows ≤ t.cq.queueOverflows
  overflowsLimited : t.cq.queueOverflows ≤ max s.cq.queueOverflows 65535

section Counters

variable {s t u : State}

theorem State.Tallies.refl (s : State) : s.Tallies s :=
  ⟨fun _ => .refl _, .refl _, .refl _, .refl _, .refl _, le_rfl, le_max_left _ _⟩

/-- Orderly work outside the SLC and the DLI follows. -/
theorem State.Tallies.work {l : List Block} (h : s.Tallies t) (ho : Orderly t u) (hf : Frame l t u)
    (hslc : .slc ∉ l := by decide) (hdli : .dli ∉ l := by decide) : s.Tallies u where
  modules m := hf.moduleRec_eq hslc m ▸ h.modules m
  cycleOverruns := by rw [hf.blocks .slc hslc]; exact h.cycleOverruns
  crcErrors := by rw [hf.blocks .dli hdli]; exact h.crcErrors
  rxOverruns := by rw [hf.blocks .dli hdli]; exact h.rxOverruns
  silenceEvents := by rw [hf.blocks .dli hdli]; exact h.silenceEvents
  overflowsRise := h.overflowsRise.trans ho.rises
  overflowsLimited := ho.limited.trans (max_le h.overflowsLimited (le_max_right _ _))

/-- What touches no block that holds a counter follows. -/
theorem State.Tallies.frame {l : List Block} (h : s.Tallies t) (hf : Frame l t u)
    (hslc : .slc ∉ l := by decide) (hdli : .dli ∉ l := by decide) (hcq : .cq ∉ l := by decide) :
    s.Tallies u where
  modules m := hf.moduleRec_eq hslc m ▸ h.modules m
  cycleOverruns := by rw [hf.blocks .slc hslc]; exact h.cycleOverruns
  crcErrors := by rw [hf.blocks .dli hdli]; exact h.crcErrors
  rxOverruns := by rw [hf.blocks .dli hdli]; exact h.rxOverruns
  silenceEvents := by rw [hf.blocks .dli hdli]; exact h.silenceEvents
  overflowsRise := by rw [hf.blocks .cq hcq]; exact h.overflowsRise
  overflowsLimited := by rw [hf.blocks .cq hcq]; exact h.overflowsLimited

/-- A cycle that starts, late or not, or a hold that ends follows where CYCLE_OVERRUNS has not risen (R71). -/
theorem State.Tallies.line (h : s.Tallies t) (hf : Frame [.slc] t u)
    (hm : u.slc.modules = t.slc.modules) (ho : t.slc.cycleOverruns = s.slc.cycleOverruns)
    (hr : Rises t.slc.cycleOverruns u.slc.cycleOverruns) : s.Tallies u :=
  have dli : u.dli = t.dli := hf.blocks .dli (by decide)
  have cq : u.cq = t.cq := hf.blocks .cq (by decide)
  { modules := fun m => by unfold State.moduleRec at *; rw [hm]; exact h.modules m
    cycleOverruns := ho ▸ hr
    crcErrors := by rw [dli]; exact h.crcErrors
    rxOverruns := by rw [dli]; exact h.rxOverruns
    silenceEvents := by rw [dli]; exact h.silenceEvents
    overflowsRise := by rw [cq]; exact h.overflowsRise
    overflowsLimited := by rw [cq]; exact h.overflowsLimited }

/-- The transmitter's work touches no counter. -/
theorem State.Tallies.transmitNext (h : s.Tallies t) : s.Tallies t.transmitNext := by
  rcases t.transmitNext_cases with e | ⟨_, _, -, -, e⟩ | ⟨-, -, -, -, -, e⟩
  · rw [e]; exact h
  · rw [e]; exact { h with }
  · rw [e]; exact { h with }

theorem State.Scanned.tallies {m : ModuleNo} {new : ModuleRec} (h : s.Scanned m new t)
    (hn : (s.moduleRec m).Tallies new) : s.Tallies t where
  modules k := by
    by_cases hk : k = m
    · subst hk; rw [h.own]; exact hn
    · rw [h.others k hk]; exact .refl _
  cycleOverruns := h.overruns
  crcErrors := .of_eq (congrArg DeskLink.crcErrors (h.frame.blocks .dli (by decide)))
  rxOverruns := .of_eq (congrArg DeskLink.rxOverruns (h.frame.blocks .dli (by decide)))
  silenceEvents := .of_eq (congrArg DeskLink.silenceEvents (h.frame.blocks .dli (by decide)))
  overflowsRise := h.orderly.rises
  overflowsLimited := h.orderly.limited

/-- The five counters of a module are kept in every case (R86). -/
theorem swapModule_tallies (old new : Tables) (m : ModuleNo) (r : ModuleRec) :
    r.Tallies (swapModule old new m r) := by
  have cleared (state : ModuleState) : r.Tallies { r with
      state := state, good := 0, miss := 0, wetting := false, image := none, readback := none } :=
    { ModuleRec.Tallies.refl r with good := fun _ => Nat.zero_le _, miss := fun _ => Nat.zero_le _ }
  unfold swapModule
  split
  · exact .refl r
  · split
    · exact .refl r
    · exact cleared _
    · exact cleared _

variable (s) in
theorem State.swap_tallies : s.Tallies s.swap ∧ s.swap.slc.cycleOverruns = s.slc.cycleOverruns := by
  obtain ⟨_, _, _, slc⟩ := s.swap_slc
  obtain ⟨_, dli⟩ := s.swap_dli
  refine ⟨⟨fun m => ?_, ?_, ?_, ?_, ?_, ?_, ?_⟩, by rw [slc]⟩
  · unfold State.moduleRec
    rw [slc, Table.get_tabulate]
    exact swapModule_tallies _ _ m _
  · rw [slc]; exact .refl _
  · rw [dli]; exact .refl _
  · rw [dli]; exact .refl _
  · rw [dli]; exact .refl _
  · rw [s.swap_cq]
  · rw [s.swap_cq]; exact le_max_left _ _

theorem State.Tallies.endHold (h : s.Tallies t) (ho : t.slc.cycleOverruns = s.slc.cycleOverruns) :
    s.Tallies t.endHold :=
  h.line t.endHold_frame t.endHold_modules ho t.endHold_rises

variable (s) in
theorem State.leaveMaintenance_tallies : s.Tallies s.leaveMaintenance := by
  unfold State.leaveMaintenance State.withdrawCommit
  split
  · exact State.Tallies.endHold { State.Tallies.refl s with } rfl
  · exact { State.Tallies.refl s with }

theorem State.requestMode_tallies {named : Nat} (ht : s.requestMode named = some t) :
    s.Tallies t := by
  have same := State.Tallies.refl s
  unfold State.requestMode at ht
  split at ht
  · cases ht; exact same
  · cases ht; exact s.leaveMaintenance_tallies
  · split at ht
    · cases ht; exact { same with }
    · cases ht
  · split at ht
    · cases ht; exact same
    · cases ht
  · cases ht

variable (s) in
theorem State.takeArrival_tallies (arr : BankImage) (rest : List BankImage) :
    s.Tallies (s.takeArrival arr rest) := by
  obtain ⟨v, w, evaluated, frame, e⟩ := s.takeArrival_cases arr rest
  have hv := (State.Tallies.refl s).work evaluated frame
  obtain ⟨pace, worked, age_frame⟩ :=
    State.handOver_cases ({ v with slc := { v.slc with banks := rest } } : State) w
  rw [e]
  refine State.Tallies.work ?_ worked age_frame
  exact { hv with }

/-- The command is a reset (R140, R167). -/
def IsReset (c : Instr) : Prop := ∃ key, c = .powerOnReset key ∨ c = .restartReset key

/-- An effect of a command is that of a reset or of COUNTER_CLEAR, or lets no counter fall. -/
theorem Effect.tallies_cases {c : Instr} (hu : Effect s c u) :
    (IsReset c ∧ ∃ key, u = s.takeReset key) ∨
    (c = .counterClear ∧ ∃ request, u = s.freeBuffer.clearCounters.answer request .accepted) ∨
    s.Tallies u := by
  have same := State.Tallies.refl s
  have freed : s.Tallies s.freeBuffer := { same with }
  cases hu with
  | poweredOn key => exact .inl ⟨⟨key, .inl rfl⟩, key, rfl⟩
  | restarted key => exact .inl ⟨⟨key, .inr rfl⟩, key, rfl⟩
  | countersCleared x => exact .inr (.inl ⟨rfl, x.kind, rfl⟩)
  | received _ x =>
    refine .inr (.inr ?_)
    unfold State.receiveValid
    dsimp only
    split
    · exact { same with }
    · exact { same with rxOverruns := rises_bump _ }
  | crcFailed => exact .inr (.inr { same with crcErrors := rises_bump _ })
  | control x hx =>
    refine .inr (.inr ?_)
    have frame := s.freeBuffer.takeControl_frame (controlOf x.body)
    rcases s.freeBuffer.takeControl_cases (controlOf x.body) with ho | ⟨-, -, hf⟩
    · exact freed.work ho frame
    · exact freed.frame hf
  | cancelled x k sl _ _ =>
    have ended := freed.work (State.cancelSlot_orderly _ k sl s.now) (State.cancelSlot_frame _ k sl _)
    exact .inr (.inr { ended with })
  | modeRequested _ x _ _ _ _ hv =>
    have moded := State.requestMode_tallies hv
    exact .inr (.inr { moded with })
  | firstCommit =>
    have swapped := s.freeBuffer.swap_tallies.1
    exact .inr (.inr { swapped with })
  | substituted x p v _ _ =>
    have imposed := freed.work (State.imposeSubstitute_orderly _ p v)
      (State.imposeSubstitute_frame _ p v)
    exact .inr (.inr { imposed with })
  | released x p _ _ =>
    have removed := freed.work (State.removeSubstitute_orderly _ p) (State.removeSubstitute_frame _ p)
    exact .inr (.inr { removed with })
  | silenceExpired e =>
    have expired : s.Tallies { s with dli := { s.dli with
        linkSilent := true, silenceEvents := bump s.dli.silenceEvents, expiryOpen := true } } :=
      { same with silenceEvents := rises_bump _ }
    exact .inr (.inr (expired.work (State.csuSilence_orderly _ e) (State.csuSilence_frame _ e)))
  | maintenanceLeft =>
    have left := (s.setKey .withdrawn).leaveMaintenance_tallies
    exact .inr (.inr { left with })
  | cycleStarted =>
    exact .inr (.inr (same.line (s.startCycle_frame false) (s.startCycle_modules false) rfl
      (s.startCycle_rises false)))
  | swapped =>
    obtain ⟨swapped, overruns⟩ := s.swap_tallies
    exact .inr (.inr (swapped.endHold overruns))
  | driven m =>
    have sent := same.work (s.recordSentCodes_orderly m) (s.recordSentCodes_frame m)
    exact .inr (.inr { sent with })
  | scanned _ _ _ _ _ hn hs => exact .inr (.inr (hs.tallies hn))
  | arrived arr rest _ _ => exact .inr (.inr (s.takeArrival_tallies arr rest))
  | pulseEnded k sl due hk =>
    exact .inr (.inr (same.work (s.endPulse_orderly (by simp [hk]) sl due)
      (s.endPulse_frame k sl due)))
  | provingEnded k sl due =>
    exact .inr (.inr (same.work (s.endProving_orderly k sl due) (s.endProving_frame k sl due)))
  | receiver | answered | interrogated | timeSet | tableWritten | commitPending | traceSelected
  | restartBegun | transmitted | notIdle | idle | keyWithdrawn | keyPresented | cycleDelayed
  | attempted => exact .inr (.inr { same with })

/-! ### The law of the counters -/

theorem State.CountersBounded.tallies (h : s.CountersBounded) (ht : s.Tallies t) :
    t.CountersBounded where
  modules m := (ht.modules m).withinLimits (h.modules m)
  cycleOverruns := ht.cycleOverruns.le h.cycleOverruns
  queueOverflows := ht.overflowsLimited.trans (max_le h.queueOverflows le_rfl)
  deskCrcErrors := ht.crcErrors.le h.deskCrcErrors
  deskRxOverruns := ht.rxOverruns.le h.deskRxOverruns
  deskSilenceEvents := ht.silenceEvents.le h.deskSilenceEvents

variable (s) in
/-- COUNTER_CLEAR leaves each module record but its counters (R90). -/
theorem State.moduleRec_clearCounters (m : ModuleNo) :
    s.clearCounters.moduleRec m = (s.moduleRec m).clearCounters :=
  Table.get_update ModuleRec.init _ (fun _ => rfl) s.slc.modules m

theorem State.CountersBounded.clearCounters (h : s.CountersBounded) :
    s.clearCounters.CountersBounded where
  modules m := by
    obtain ⟨-, -, -, -, -, good, miss⟩ := h.modules m
    rw [State.moduleRec_clearCounters]
    exact ⟨Nat.zero_le _, Nat.zero_le _, Nat.zero_le _, Nat.zero_le _, Nat.zero_le _, good, miss⟩
  cycleOverruns := Nat.zero_le _
  queueOverflows := Nat.zero_le _
  deskCrcErrors := Nat.zero_le _
  deskRxOverruns := Nat.zero_le _
  deskSilenceEvents := Nat.zero_le _

theorem Effect.countersBounded {c : Instr} (h : s.CountersBounded) (hu : Effect s c u) :
    u.CountersBounded := by
  rcases hu.tallies_cases with ⟨-, key, rfl⟩ | ⟨-, request, rfl⟩ | ht
  · exact { State.reset_countersBounded with }
  · have cleared := State.CountersBounded.clearCounters (s := s.freeBuffer) { h with }
    exact { cleared with }
  · exact h.tallies ht

theorem stepsLead_countersBounded : StepsLead State.CountersBounded State.CountersBounded where
  queue _ _ h := { h with }
  nothing _ h := h
  held _ h := { h with }
  effect _ _ _ h hu := hu.countersBounded h
  transmit s h := h.tallies (State.Tallies.refl s).transmitNext
  finish s h := h.tallies ((State.Tallies.refl s).work s.ageFinish_orderly s.ageFinish_frame)
  expiryOver _ h := { h with }
  tick s h := by
    unfold State.tick
    split
    · exact h
    · exact { h with }

/-- A command that is neither COUNTER_CLEAR nor a reset lets no counter fall. -/
theorem exec_tallies {c : Instr} (hc : c ≠ .counterClear) (hr : ¬ IsReset c)
    (ht : exec c s = .next t) : s.Tallies t := by
  have same := State.Tallies.refl s
  rcases exec_effects c ht with rfl | rfl | ⟨u, hu, rfl⟩
  · exact { same with }
  · exact same
  · rcases hu.tallies_cases with ⟨h, -⟩ | ⟨h, -⟩ | h
    · exact absurd h hr
    · exact absurd h hc
    · exact h.transmitNext

end Counters

/-- Settles O55: an effect of a command lets each counter rise at most once, or is COUNTER_CLEAR's or a
reset's. -/
theorem everyStepKeepsTheCountersBounded : Obligations.EveryStepKeepsTheCountersBounded := by
  refine ⟨fun s t h ht => stepsLead_countersBounded.step h ht, fun c s t hc hp hr ht => ?_⟩
  have h : s.Tallies t := exec_tallies hc (fun ⟨key, e⟩ => e.elim (hp key) (hr key)) ht
  exact ⟨fun m => ⟨(h.modules m).replyTimeouts, (h.modules m).crcErrors, (h.modules m).formatErrors,
    (h.modules m).missedScans, (h.modules m).lossEvents⟩, h.cycleOverruns, h.crcErrors, h.rxOverruns,
    h.silenceEvents, h.overflowsRise, h.overflowsLimited⟩

end Sys2Proof.Machine

/-! PROOFS. Every step keeps the mode sound, and ACTIVE changes in no step taken in OPERATE (R69, R153 to
R158). -/

namespace Sys2Proof.Machine

section Modes

variable {s t : State}

/-- Orderly work keeps the mode sound if it leaves the SLC of an unconfigured part idle. -/
theorem State.ModeSound.orderly (h : s.ModeSound) (ho : Orderly s t)
    (hi : s.ts.mode = .unconfigured →
      t.slc.cycle = none ∧ t.slc.gridOrigin = none ∧ t.slc.nextDue = none) : t.ModeSound where
  pendingInMaintenance := ho.ts ▸ h.pendingInMaintenance
  pendingValidated := ho.ts ▸ h.pendingValidated
  pendingWithoutSlots hp k := ho.free k (h.pendingWithoutSlots (ho.ts ▸ hp) k)
  maintenanceWithKey := ho.ts ▸ h.maintenanceWithKey
  configuredValidated := ho.ts ▸ h.configuredValidated
  unconfiguredEmpty := ho.ts ▸ h.unconfiguredEmpty
  unconfiguredIdle hm := hi (ho.ts ▸ hm)
  unconfiguredUndriven hm m := ho.undriven m (h.unconfiguredUndriven (ho.ts ▸ hm) m)
  unconfiguredWithoutSlots hm k := ho.free k (h.unconfiguredWithoutSlots (ho.ts ▸ hm) k)

/-- Orderly work outside the SLC. -/
theorem State.ModeSound.work {l : List Block} (h : s.ModeSound) (ho : Orderly s t)
    (hf : Frame l s t) (hslc : .slc ∉ l := by decide) : t.ModeSound := by
  have slc : t.slc = s.slc := hf.blocks .slc hslc
  exact h.orderly ho fun hm => slc ▸ h.unconfiguredIdle hm

/-- In a configured part with no commit pending only the tables, the mode and the key bear on the law. -/
theorem State.ModeSound.of_ts (hp : t.ts.commitPending = false) (hm : t.ts.mode ≠ .unconfigured)
    (hk : t.ts.mode = .maintenance → t.ts.key = .presented)
    (hv : t.ts.active.firstInvalid = none) : t.ModeSound :=
  have pending {p : Prop} (h : t.ts.commitPending = true) : p := absurd (hp.symm.trans h) (by decide)
  have unconfigured {p : Prop} (h : t.ts.mode = .unconfigured) : p := absurd h hm
  ⟨pending, pending, pending, hk, fun _ => hv, unconfigured, unconfigured, unconfigured,
    unconfigured⟩

theorem State.configured_iff (s : State) : s.configured = true ↔ s.ts.mode ≠ .unconfigured :=
  decide_eq_true_iff

/-- A part in which a cycle runs is configured (R69). -/
theorem State.ModeSound.configured_of_cycle (h : s.ModeSound) (hc : s.slc.cycle ≠ none) :
    s.ts.mode ≠ .unconfigured :=
  fun hm => hc (h.unconfiguredIdle hm).1

/-- The swap puts a validated bank in force and leaves no commit pending (R155). -/
theorem State.ModeSound.swap (h : s.ModeSound) (hv : s.ts.shadow.firstInvalid = none) :
    s.swap.ModeSound ∧ s.swap.ts.mode ≠ .unconfigured := by
  have configured : s.swap.ts.mode ≠ .unconfigured := by
    rw [s.swap_ts]
    dsimp only
    split
    · next hc => exact s.configured_iff.1 hc
    · decide
  refine ⟨.of_ts (by rw [s.swap_ts]) configured ?_ (by rw [s.swap_ts]; exact hv), configured⟩
  rw [s.swap_ts]
  dsimp only
  split
  · exact h.maintenanceWithKey
  · nofun

/-- A hold that ends in a configured part (R72). -/
theorem State.ModeSound.endHold (h : s.ModeSound) (hm : s.ts.mode ≠ .unconfigured) :
    s.endHold.ModeSound :=
  h.orderly s.endHold_frame.orderly fun hm' => absurd hm' hm

/-- The mode returns to OPERATE with no commit pending (R156 to R158). -/
theorem State.leaveMaintenance_ts (s : State) :
    s.leaveMaintenance.ts = { s.ts with mode := .operate, commitPending := false } := by
  unfold State.leaveMaintenance State.withdrawCommit
  split
  · exact (State.endHold_frame _).blocks .ts (by decide)
  · next hp =>
    have hp : s.ts.commitPending = false := by simpa using hp
    rw [← hp]

theorem State.leaveMaintenance_modeSound (hv : s.ts.active.firstInvalid = none) :
    s.leaveMaintenance.ModeSound := by
  have ts := s.leaveMaintenance_ts
  exact .of_ts (by rw [ts]) (by rw [ts]; nofun) (by rw [ts]; nofun) (by rw [ts]; exact hv)

/-- An obeyed MODE_REQUEST keeps the law, and the ACTIVE bank (R156). -/
theorem State.ModeSound.requestMode (h : s.ModeSound) {named : Nat}
    (ht : s.requestMode named = some t) : t.ModeSound := by
  unfold State.requestMode at ht
  split at ht
  · cases ht; exact h
  · next hm =>
    cases ht
    exact State.leaveMaintenance_modeSound (h.configuredValidated (by rw [hm]; decide))
  · next hm =>
    split at ht
    · next hk =>
      cases ht
      have pending : s.ts.commitPending = false := by
        by_contra hp
        exact absurd (hm.symm.trans (h.pendingInMaintenance (by simpa using hp))) (by decide)
      exact .of_ts pending nofun (fun _ => hk) (h.configuredValidated (by rw [hm]; decide))
    · cases ht
  · split at ht
    · cases ht; exact h
    · cases ht
  · cases ht

/-- SHADOW changes only while no commit is pending (R150). -/
theorem State.ModeSound.takeTableWrite (h : s.ModeSound) (request : Byte) (body : List Byte) :
    (s.takeTableWrite request body).ModeSound :=
  { h with
    pendingValidated := fun hp => by
      rcases s.writeTable_cases body with e | ⟨hn, -⟩
      · exact (congrArg Tables.firstInvalid e).trans (h.pendingValidated hp)
      · exact absurd (hn.symm.trans hp) (by decide) }

/-- An unconfigured part has no cycle due (R69). -/
theorem State.ModeSound.startCycle (h : s.ModeSound) (late : Bool) :
    (s.startCycle late).ModeSound := by
  refine h.orderly (s.startCycle_frame late).orderly fun hm => ?_
  rcases s.startCycle_cases late with ⟨-, e⟩ | ⟨due, hd, -⟩
  · rw [e]; exact h.unconfiguredIdle hm
  · rw [(h.unconfiguredIdle hm).2.2] at hd; cases hd

theorem State.ModeSound.takeArrival (h : s.ModeSound) (arr : BankImage) (rest : List BankImage) :
    (s.takeArrival arr rest).ModeSound := by
  obtain ⟨v, w, evaluated, frame, e⟩ := s.takeArrival_cases arr rest
  have hv := h.work evaluated frame
  obtain ⟨pace, worked, age_frame⟩ :=
    State.handOver_cases ({ v with slc := { v.slc with banks := rest } } : State) w
  rw [e]
  refine State.ModeSound.work ?_ worked age_frame
  exact { hv with }

theorem State.takeReset_modeSound (s : State) (key : KeyLevel) : (s.takeReset key).ModeSound :=
  { State.reset_modeSound with maintenanceWithKey := nofun }

/-- The transmitter's work bears on nothing that the law speaks of. -/
theorem State.ModeSound.transmitNext (h : s.ModeSound) : s.transmitNext.ModeSound := by
  rcases s.transmitNext_cases with e | ⟨_, _, -, -, e⟩ | ⟨-, -, -, -, -, e⟩
  · rw [e]; exact h
  · rw [e]; exact { h with }
  · rw [e]; exact { h with }

/-- Every effect of a command keeps the mode sound. -/
theorem Effect.modeSound {c : Instr} {u : State} (h : s.ModeSound) (hu : Effect s c u) :
    u.ModeSound := by
  have freed : s.freeBuffer.ModeSound := { h with }
  cases hu with
  | poweredOn key => exact s.takeReset_modeSound key
  | restarted key => exact s.takeReset_modeSound key
  | control x hx =>
    have frame := s.freeBuffer.takeControl_frame (controlOf x.body)
    rcases s.freeBuffer.takeControl_cases (controlOf x.body) with ho | ⟨hc, hp, -⟩
    · exact freed.work ho frame
    · have ts : (s.freeBuffer.takeControl (controlOf x.body)).ts = s.ts :=
        frame.blocks .ts (by decide)
      have configured := s.configured_iff.1 hc
      exact .of_ts (ts ▸ hp) (ts ▸ configured) (ts ▸ h.maintenanceWithKey)
        (ts ▸ h.configuredValidated configured)
  | cancelled x k sl _ _ =>
    have ended := freed.work (State.cancelSlot_orderly _ k sl s.now) (State.cancelSlot_frame _ k sl _)
    exact { ended with }
  | modeRequested _ x _ _ _ _ hv =>
    have moded := freed.requestMode hv
    exact { moded with }
  | tableWritten x => exact freed.takeTableWrite _ _
  | firstCommit x hx hm hv => exact (freed.swap hv).1
  | commitPending x hx hm hfree hv =>
    exact { freed with
      pendingInMaintenance := fun _ => hm
      pendingValidated := fun _ => hv
      pendingWithoutSlots := fun _ => hfree }
  | substituted x p v _ _ =>
    have imposed := freed.work (State.imposeSubstitute_orderly _ p v)
      (State.imposeSubstitute_frame _ p v)
    exact { imposed with }
  | released x p _ _ =>
    have removed := freed.work (State.removeSubstitute_orderly _ p) (State.removeSubstitute_frame _ p)
    exact { removed with }
  | silenceExpired e =>
    exact State.ModeSound.work (s := { s with dli := { s.dli with
      linkSilent := true, silenceEvents := bump s.dli.silenceEvents, expiryOpen := true } })
      { h with } (State.csuSilence_orderly _ e) (State.csuSilence_frame _ e)
  | keyWithdrawn _ hm => exact { h with maintenanceWithKey := fun hm' => absurd hm' hm }
  | maintenanceLeft _ hm =>
    exact State.leaveMaintenance_modeSound (h.configuredValidated (by rw [hm]; decide))
  | keyPresented => exact { h with maintenanceWithKey := fun _ => rfl }
  | cycleStarted => exact h.startCycle false
  | swapped hp =>
    obtain ⟨swapped, configured⟩ := h.swap (h.pendingValidated hp)
    exact swapped.endHold configured
  | attempted _ _ _ hc =>
    exact { h with unconfiguredIdle := fun hm => absurd hm (h.configured_of_cycle hc) }
  | driven m _ hc =>
    have sent := h.work (s.recordSentCodes_orderly m) (s.recordSentCodes_frame m)
    have ts : (s.recordSentCodes m).ts = s.ts := (s.recordSentCodes_frame m).blocks .ts (by decide)
    exact { sent with
      unconfiguredIdle := fun hm => absurd (ts ▸ hm) (h.configured_of_cycle hc) }
  | scanned _ _ _ _ hc _ hs =>
    exact h.orderly hs.orderly fun hm => absurd hm (h.configured_of_cycle hc)
  | arrived arr rest _ _ => exact h.takeArrival arr rest
  | pulseEnded k sl due hk =>
    exact h.work (s.endPulse_orderly (by simp [hk]) sl due) (s.endPulse_frame k sl due)
  | provingEnded k sl due => exact h.work (s.endProving_orderly k sl due) (s.endProving_frame k sl due)
  | received _ x => unfold State.receiveValid; dsimp only; split <;> exact { h with }
  | receiver | crcFailed | answered | interrogated | timeSet | traceSelected | countersCleared
  | restartBegun | transmitted | notIdle | idle | cycleDelayed => exact { h with }

theorem stepsLead_modeSound : StepsLead State.ModeSound State.ModeSound where
  queue _ _ h := { h with }
  nothing _ h := h
  held _ h := { h with }
  effect _ _ _ h hu := hu.modeSound h
  transmit _ h := h.transmitNext
  finish s h := h.work s.ageFinish_orderly s.ageFinish_frame
  expiryOver _ h := { h with }
  tick s h := by
    unfold State.tick
    split
    · exact h
    · exact { h with }

/-! ### The ACTIVE bank in OPERATE -/

/-- Where the mode and the ACTIVE bank stand as a step in OPERATE may leave them: the part is unconfigured,
after a reset, or the bank is still `active`. -/
def State.KeepsActive (active : Tables) (t : State) : Prop :=
  t.ts.mode ≠ .unconfigured → t.ts.active = active

theorem Orderly.active (h : Orderly s t) : t.ts.active = s.ts.active :=
  congrArg TableStore.active h.ts

/-- In OPERATE no effect but a reset's changes ACTIVE: no commit is pending there (R154). -/
theorem Effect.keepsActive {c : Instr} {u : State} (h : s.ModeSound) (hm : s.ts.mode = .operate)
    (hu : Effect s c u) : u.KeepsActive s.ts.active := by
  cases hu with
  | poweredOn | restarted => exact fun hn => absurd rfl hn
  | firstCommit _ _ hn => exact absurd (hm.symm.trans hn) (by decide)
  | swapped hp => exact absurd (hm.symm.trans (h.pendingInMaintenance hp)) (by decide)
  | control x =>
    have ts := (s.freeBuffer.takeControl_frame (controlOf x.body)).blocks .ts (by decide)
    exact fun _ => congrArg TableStore.active ts
  | modeRequested _ _ _ _ _ _ hv =>
    have kept := (State.requestMode_sustains _ _ hv).active
    exact fun _ => kept
  | maintenanceLeft => exact fun _ => (s.setKey .withdrawn).leaveMaintenance_sustains.active
  | cycleStarted => exact fun _ => (s.startCycle_sustains false).active
  | cancelled _ k sl => exact fun _ => (s.freeBuffer.cancelSlot_orderly k sl s.now).active
  | substituted _ p v => exact fun _ => (s.freeBuffer.imposeSubstitute_orderly p v).active
  | released _ p => exact fun _ => (s.freeBuffer.removeSubstitute_orderly p).active
  | silenceExpired e =>
    have ts : (s.expireSilence e).ts = s.ts := (State.csuSilence_frame _ e).blocks .ts (by decide)
    exact fun _ => congrArg TableStore.active ts
  | driven m => exact fun _ => (s.recordSentCodes_orderly m).active
  | scanned _ _ _ _ _ _ hs => exact fun _ => hs.orderly.active
  | arrived arr rest => exact fun _ => (s.takeArrival_sustains arr rest).active
  | pulseEnded k sl due hk => exact fun _ => (s.endPulse_orderly (by simp [hk]) sl due).active
  | provingEnded k sl due => exact fun _ => (s.endProving_orderly k sl due).active
  | received | receiver | crcFailed | answered | interrogated | timeSet | tableWritten
  | commitPending | traceSelected | countersCleared | restartBegun | transmitted | notIdle | idle
  | keyWithdrawn | keyPresented | cycleDelayed | attempted => exact fun _ => rfl

theorem stepsLead_keepsActive (active : Tables) :
    StepsLead (fun s => s.ModeSound ∧ s.ts.mode = .operate ∧ s.ts.active = active)
      (State.KeepsActive active) where
  queue _ _ h := ⟨{ h.1 with }, h.2⟩
  nothing _ h _ := h.2.2
  held _ h _ := h.2.2
  effect _ _ _ h hu := h.2.2 ▸ hu.keepsActive h.1 h.2.1
  transmit s h := by
    have ts : s.transmitNext.ts = s.ts := s.transmitNext_frame.blocks .ts (by decide)
    intro hm
    rw [ts] at hm ⊢
    exact h hm
  finish s h _ := (congrArg TableStore.active s.ageFinish_orderly.ts).trans h.2.2
  expiryOver _ h _ := h.2.2
  tick s h _ := s.tick_sustains.active.trans h.2.2

end Modes

/-- Settles O56: each thing that a step is made of keeps the mode sound, and ACTIVE in OPERATE. -/
theorem everyStepKeepsTheModeSound : Obligations.EveryStepKeepsTheModeSound := by
  intro s t h ht
  exact ⟨stepsLead_modeSound.step h ht,
    fun hm => (stepsLead_keepsActive s.ts.active).step ⟨h, hm, rfl⟩ ht⟩

end Sys2Proof.Machine

/-! PROOFS. COUNTER_CLEAR (R90), the module state machine (R82, R83) and the resets (R140, R167). -/

namespace Sys2Proof.Machine

/-! ### COUNTER_CLEAR -/

theorem State.clearCounters_frame (s : State) : Frame [.slc, .cq, .dli] s s.clearCounters :=
  ⟨fun b hb => by
    cases b with
    | slc | cq | dli => exact absurd (by decide) hb
    | _ => rfl, rfl⟩

theorem State.answered_frame (s : State) (rest : List RxTelegram) (answers : List Answer) :
    Frame [.dli] s (s.answered rest answers) :=
  ⟨fun b hb => by
    cases b with
    | dli => exact absurd (by decide) hb
    | _ => rfl, rfl⟩

/-- Settles O16: the obeyed telegram reaches its owner, and clearing is an update of every module record. -/
theorem counterClearZeroesEveryCounter : Obligations.CounterClearZeroesEveryCounter := by
  intro s received rest h
  have cleared := State.moduleRec_clearCounters (s.answered rest [])
  refine ⟨(s.answered rest []).clearCounters.answer DeskKind.counterClear.byte .accepted,
    h.dispatch_eq rfl _, cleared, rfl, rfl, rfl, ?_⟩
  exact ((s.answered_frame rest []).mono (by decide)).trans
    ((State.clearCounters_frame _).trans ((State.answer_frame _ _ _ _).mono (by decide)))

/-! ### The module state machine -/

theorem ModuleState.heard_iff (st : ModuleState) : st.heard = true ↔ st = .active ∨ st = .suspect := by
  cases st <;> simp [ModuleState.heard]

theorem ModuleRec.goodScan_eq (r : ModuleRec) (sys : SystemRecord) : r.goodScan sys = { r with
    good := min (r.good + 1) 15, miss := 0
    state :=
      if r.state = .suspect then .active
      else if (r.state = .starting ∨ r.state = .lost) ∧ sys.recoveryCount ≤ min (r.good + 1) 15
        then .active
      else r.state } := by
  unfold ModuleRec.goodScan Config.scanCountLimit
  cases hr : r.state <;> simp

theorem ModuleRec.missedScan_eq (r : ModuleRec) (sys : SystemRecord) :
    let miss := min (r.miss + 1) 15
    let lost := (r.state = .active ∨ r.state = .suspect) ∧ sys.lossThreshold ≤ miss
    r.missedScan sys = { r with
      good := 0, miss := miss
      missedScans := if r.state = .lost then r.missedScans else bump r.missedScans
      lossEvents := if lost then bump r.lossEvents else r.lossEvents
      state := if lost then .lost else if r.state = .active then .suspect else r.state } := by
  simp [ModuleRec.missedScan, Config.scanCountLimit, ModuleState.heard_iff]

/-- What a missed scan hands on, by whether the module's state changes (R78, R83, R84). -/
theorem State.missScan_eq (s : State) (m : ModuleNo) (t : Time) :
    let new := (s.moduleRec m).missedScan s.system
    let stored := s.setModuleRec m new
    s.missScan m t =
      (if new.state = (s.moduleRec m).state then stored
        else (stored.hand t (.module m new.state)).stateNotices m new.state t).endScan m := by
  unfold State.missScan State.moduleRecord
  by_cases h : ((s.moduleRec m).missedScan s.system).state = (s.moduleRec m).state <;> simp [h]

theorem State.useOf_recorded (s : State) (m : ModuleNo) (r : ModuleRec) (t : Time)
    (content : RecordContent) (k : ModuleNo) :
    ((s.setModuleRec m r).hand t content).useOf k = s.useOf k :=
  (State.hand_frame _ t content).useOf_eq (by decide) k

section Notices

variable {s : State} {m : ModuleNo} {new : ModuleState} (t : Time)

theorem State.stateNotices_input (hu : s.useOf m = .input) :
    s.stateNotices m new t = s.moduleNotice m t := by
  simp [State.stateNotices, hu]

theorem State.stateNotices_lost (hu : s.useOf m = .output) (hn : new = .lost) :
    s.stateNotices m new t = (s.oduModuleLost m).csuModuleLost m t := by
  simp [State.stateNotices, hu, hn]

theorem State.stateNotices_output (hu : s.useOf m = .output) (hn : new ≠ .lost) :
    s.stateNotices m new t = s := by
  simp [State.stateNotices, hu, hn]

end Notices

/-- Settles O38: the two scans on a module record, and what a missed scan hands on. -/
theorem moduleStateMachine : Obligations.ModuleStateMachine := by
  intro r sys
  refine ⟨r.goodScan_eq sys, r.missedScan_eq sys, ?_⟩
  rintro s m t rfl rfl new stored recorded
  have scanned := s.missScan_scanned m t
  have eq : s.missScan m t = (if new.state = (s.moduleRec m).state then stored
    else recorded.stateNotices m new.state t).endScan m := s.missScan_eq m t
  have use : recorded.useOf m = s.useOf m := s.useOf_recorded m new t _ m
  refine ⟨fun same => ?_, fun changed => ⟨fun hu => ?_, fun hu lost => ?_, fun hu kept => ?_⟩,
    scanned.own, scanned.others⟩
  · rw [eq, if_pos same]
  · rw [eq, if_neg changed, State.stateNotices_input t (use.trans hu)]
  · rw [eq, if_neg changed, State.stateNotices_lost t (use.trans hu) lost]
  · rw [eq, if_neg changed, State.stateNotices_output t (use.trans hu) kept]

/-! ### Resets -/

theorem State.takeReset_justReset (s : State) (key : KeyLevel) :
    State.JustReset key (s.takeReset key) where
  time := rfl
  tables := rfl
  modules _ := rfl
  line := rfl
  points _ := rfl
  trace := ⟨rfl, rfl⟩
  groups _ := rfl
  handOvers := rfl
  channels _ _ := rfl
  slots _ := rfl
  queue := rfl
  link := rfl
  running := rfl

/-- The ACCEPTED answer to a RESTART in progress is what RESTART_RESET waits for (R140). -/
theorem State.sendingRestartAnswer_eq {s : State} {payload : List Byte}
    (hr : s.dli.restarting = true)
    (ht : s.dli.transmitter = some (.answer ⟨0x0E, .accepted, payload⟩)) :
    s.sendingRestartAnswer = true := by
  simp [State.sendingRestartAnswer, hr, ht, DeskKind.byte]

/-- Settles O5: both resets take the state after reset, in which the transmitter has no work. -/
theorem resetsReturnEveryBlock : Obligations.ResetsReturnEveryBlock := by
  intro s key
  have reset := s.takeReset_justReset key
  refine ⟨⟨_, rfl, reset, rfl⟩, fun payload running restarting sending => ⟨_, ?_, reset, rfl⟩⟩
  have sent := State.sendingRestartAnswer_eq restarting sending
  have taken : execRestartReset key s = .next (s.takeReset key).transmitNext :=
    State.occur_eq running (if_pos sent)
  rw [State.takeReset_transmitNext] at taken
  exact taken

end Sys2Proof.Machine

/-! PROOFS. Every step keeps the slots sound (R104, R106). Every command but CONTROL frees an occupied slot or
has it go on with its channel and the fields of its phase (`SlotsFollow`). An accepted CONTROL occupies a slot
for a channel that no slot owns, because the checks of R105, told as one list, have all passed
(`State.judgeControl_eq`). -/

namespace Sys2Proof.Machine

/-! ### The checks of a CONTROL (R105) -/

/-- The result of the first check that fails, or `passed` where none does. -/
def judgeChecks (checks : List (Bool × CommandResult)) (passed : Except CommandResult SlotNo) :
    Except CommandResult SlotNo :=
  match checks.find? fun check => !check.1 with
  | some check => .error check.2
  | none => passed

theorem judgeChecks_cons (check : Bool) (result : CommandResult) (checks : List (Bool × CommandResult))
    (passed : Except CommandResult SlotNo) : judgeChecks ((check, result) :: checks) passed =
      if !check then .error result else judgeChecks checks passed := by
  cases check <;> rfl

/-- The eight checks of R105 in their order, each with the result that its failing gives. -/
def State.controlChecks (s : State) (c : ControlNo) : List (Bool × CommandResult) :=
  let e := s.ts.active.commandEntry c
  [(decide (s.ts.mode ≠ .unconfigured), .rejectedNotConfigured),
   (!s.ts.commitPending, .rejectedCommitPending),
   (e.defined, .rejectedUndefined),
   (decide ((s.moduleRec e.mod).state = .active), .rejectedModule),
   (!((s.channel e.mod e.channel).any Channel.isFaulted), .rejectedChannelFault),
   ((List.finRange 16).all fun k =>
      (s.slot k).all fun sl => !(sl.mod = e.mod && sl.channel = e.channel), .rejectedBusy),
   ((List.finRange 16).any fun k => (s.slot k).isNone, .rejectedNoSlot),
   (e.proving.all fun p => (s.pointRec p).evaluated ≠ .known e.expected, .already)]

section Checks

variable (s : State)

theorem State.channelFaulted_eq (m : ModuleNo) (ch : ChannelNo) :
    s.channelFaulted m ch = (s.channel m ch).any Channel.isFaulted := by
  unfold State.channelFaulted
  cases hc : s.channel m ch with
  | none => rfl
  | some channel =>
    obtain ⟨drive, condition, lastSent⟩ := channel
    cases condition <;> rfl

theorem State.isSome_ownerOf (m : ModuleNo) (ch : ChannelNo) :
    (s.ownerOf m ch).isSome = !(List.finRange 16).all fun k =>
      (s.slot k).all fun sl => !(sl.mod = m && sl.channel = ch) := by
  rw [← Option.not_isNone, Bool.not_inj_iff, Bool.eq_iff_iff, Option.isNone_iff_eq_none,
    State.ownerOf_eq_none]
  simp [Option.all_eq_true, imp_iff_not_or]

theorem State.isSome_lowestFree :
    s.lowestFree.isSome = (List.finRange 16).any fun k => (s.slot k).isNone := by
  unfold State.lowestFree allSlots
  rw [Bool.eq_iff_iff, List.find?_isSome, List.any_eq_true]

theorem State.alreadyShown_eq (e : CommandEntry) : s.alreadyShown e =
    !e.proving.all fun p => (s.pointRec p).evaluated ≠ .known e.expected := by
  unfold State.alreadyShown
  cases e.proving <;> simp

/-- The judgement of a CONTROL is the first failing check of R105, or the slot found by the seventh. -/
theorem State.judgeControl_eq (c : ControlNo) : s.judgeControl c =
    judgeChecks (s.controlChecks c) (s.lowestFree.elim (.error .rejectedNoSlot) .ok) := by
  unfold State.judgeControl State.controlChecks
  dsimp only
  simp only [judgeChecks_cons, ← State.isSome_lowestFree, State.isSome_ownerOf,
    State.channelFaulted_eq, State.alreadyShown_eq, State.configured]
  cases s.lowestFree <;> simp [judgeChecks]

/-- A CONTROL accepted into a slot has passed the sixth check: no slot owns its channel (R105). -/
theorem State.ownerOf_of_accepted {c : ControlNo} {k : SlotNo} (h : s.judgeControl c = .ok k) :
    s.ownerOf (s.ts.active.commandEntry c).mod (s.ts.active.commandEntry c).channel = none := by
  rw [State.judgeControl_eq, judgeChecks] at h
  split at h
  · cases h
  · next passed =>
    have sixth := List.find?_eq_none.1 passed
      (!(s.ownerOf (s.ts.active.commandEntry c).mod (s.ts.active.commandEntry c).channel).isSome,
        .rejectedBusy) (by simp [State.controlChecks, State.isSome_ownerOf])
    simpa using sixth

end Checks

/-! ### The fields of a slot's phase (R104) -/

/-- The slot contents `b` go on from the contents `a`: the slot owns the same channel, and the fields agree
with the phase if they did before. -/
structure Slot.GoesOn (a b : Slot) : Prop where
  mod : b.mod = a.mod
  channel : b.channel = a.channel
  sound : a.sound → b.sound

theorem Slot.GoesOn.refl (a : Slot) : a.GoesOn a := ⟨rfl, rfl, id⟩

theorem Slot.GoesOn.trans {a b c : Slot} (h : a.GoesOn b) (h' : b.GoesOn c) : a.GoesOn c :=
  ⟨h'.mod.trans h.mod, h'.channel.trans h.channel, h'.sound ∘ h.sound⟩

/-- A PROVING slot goes on without its pulse (R108); a CONFIRMING one has none. -/
theorem Slot.goesOn_withoutPulse {a : Slot} (h : a.phase = .proving ∨ a.phase = .confirming) :
    a.GoesOn { a with pulseEnd := none } where
  mod := rfl
  channel := rfl
  sound hs := by
    unfold Slot.sound at hs ⊢
    rcases h with h | h
    · simp only [h] at hs ⊢
      obtain ⟨-, hproving, hdeadline, hresult⟩ := hs
      exact ⟨fun hp => absurd rfl hp, hproving, hdeadline, hresult⟩
    · simp only [h] at hs ⊢
      obtain ⟨hmode, hproving, -, hdeadline, hresult⟩ := hs
      exact ⟨hmode, hproving, trivial, hdeadline, hresult⟩

/-- A proved slot whose pulse runs goes on in FINISHING (R109). -/
theorem Slot.goesOn_finishing {a : Slot} (h : a.phase = .proving) (hp : a.pulseEnd ≠ none) :
    a.GoesOn { a with phase := .finishing, deadline := none, result := some .proved } where
  mod := rfl
  channel := rfl
  sound hs := by
    simp only [Slot.sound, h] at hs
    obtain ⟨hmode, hproving, -, -⟩ := hs
    exact ⟨hmode hp, hproving, hp, rfl, rfl⟩

/-- An accepted control gives its slot the fields of the phase it enters (R106). -/
theorem CommandEntry.slotAt_sound (e : CommandEntry) (c : ControlNo) (t : Time) :
    (e.slotAt c t).sound := by
  unfold CommandEntry.slotAt Slot.sound
  cases e.proving with
  | some p => simp
  | none => by_cases hm : e.mode = .pulse <;> simp [hm]

/-! ### Slots that go on or free -/

/-- Every slot occupied in `t` goes on from its contents in `s`. -/
def SlotsFollow (s t : State) : Prop :=
  ∀ k b, t.slot k = some b → ∃ a, s.slot k = some a ∧ a.GoesOn b

section Follow

variable {s t u : State} {l : List Block} {k : SlotNo} {sl : Slot}

theorem SlotsFollow.slotsSound (h : SlotsFollow s t) (hs : s.SlotsSound) : t.SlotsSound where
  oneOwner j k a b ha hb hm hc := by
    obtain ⟨a', ha', ga⟩ := h j a ha
    obtain ⟨b', hb', gb⟩ := h k b hb
    exact hs.oneOwner j k a' b' ha' hb' (ga.mod.symm.trans (hm.trans gb.mod))
      (ga.channel.symm.trans (hc.trans gb.channel))
  phases k b hb := by
    obtain ⟨a, ha, g⟩ := h k b hb
    exact g.sound (hs.phases k a ha)

theorem SlotsFollow.refl (s : State) : SlotsFollow s s := fun _ b hb => ⟨b, hb, .refl b⟩

theorem SlotsFollow.trans (h : SlotsFollow s t) (h' : SlotsFollow t u) : SlotsFollow s u := by
  intro k c hc
  obtain ⟨b, hb, gc⟩ := h' k c hc
  obtain ⟨a, ha, gb⟩ := h k b hb
  exact ⟨a, ha, gb.trans gc⟩

theorem SlotsFollow.foldl {α : Type} {f : State → α → State} (h : ∀ s a, SlotsFollow s (f s a))
    (l : List α) (s : State) : SlotsFollow s (l.foldl f s) := by
  induction l generalizing s with
  | nil => exact .refl s
  | cons a l ih => exact (h s a).trans (ih _)

theorem SlotsFollow.of_same (h : t.slots = s.slots) : SlotsFollow s t := by
  intro k b hb
  unfold State.slot at hb ⊢
  exact ⟨b, h ▸ hb, .refl b⟩

/-- What does not touch the slots leaves them as they are. -/
theorem Frame.slotsFollow (h : Frame l s t) (hl : .slots ∉ l := by decide) : SlotsFollow s t :=
  .of_same (h.blocks .slots hl)

theorem State.freeSlot_follow (s : State) (k : SlotNo) : SlotsFollow s (s.freeSlot k) := by
  intro j b hb
  unfold State.freeSlot at hb
  rw [State.slot_setSlot] at hb
  split at hb
  · cases hb
  · exact ⟨b, hb, .refl b⟩

theorem State.setSlot_follow (hk : s.slot k = some sl) {b : Slot} (hb : sl.GoesOn b) :
    SlotsFollow s (s.setSlot k (some b)) := by
  intro j x hx
  rw [State.slot_setSlot] at hx
  split at hx
  · next hj => cases hx; exact ⟨sl, hj ▸ hk, hb⟩
  · exact ⟨x, hx, .refl x⟩

/-- A slot frees after work that does not touch the slots. -/
theorem Frame.freeSlot_follow (h : Frame l s t) (k : SlotNo) (hl : .slots ∉ l := by decide) :
    SlotsFollow s (t.freeSlot k) :=
  (h.slotsFollow hl).trans (t.freeSlot_follow k)

/-- A slot goes on after work that does not touch the slots. -/
theorem Frame.setSlot_follow (h : Frame l s t) (hk : s.slot k = some sl) {b : Slot}
    (hb : sl.GoesOn b) (hl : .slots ∉ l := by decide) : SlotsFollow s (t.setSlot k (some b)) :=
  (h.slotsFollow hl).trans (State.setSlot_follow ((h.slot_eq hl k).trans hk) hb)

/-! ### CSU (R108 to R115) -/

theorem State.endPulse_follow (hk : s.slot k = some sl) (due : Time) :
    SlotsFollow s (s.endPulse k sl due) := by
  have off := s.setCode_frame sl.mod sl.channel .off
  unfold State.endPulse
  dsimp only
  split
  · exact off.slotsFollow.trans ((State.issue_frame _ _ _ _).freeSlot_follow k)
  · exact off.freeSlot_follow k
  · next h => exact off.setSlot_follow hk (Slot.goesOn_withoutPulse (.inl h))
  · next h => exact off.setSlot_follow hk (Slot.goesOn_withoutPulse (.inr h))

theorem State.proveSlot_follow (hk : s.slot k = some sl) (hp : sl.phase = .proving) (e : Time) :
    SlotsFollow s (s.proveSlot k sl e) := by
  have issued := s.issue_frame sl.control .proved e
  unfold State.proveSlot
  dsimp only
  split
  · exact issued.freeSlot_follow k
  · next hr =>
    split
    · exact issued.slotsFollow.trans ((State.setCode_frame _ _ _ _).freeSlot_follow k)
    · exact issued.setSlot_follow hk (Slot.goesOn_finishing hp (by simp [hr]))

variable (s)

theorem State.csuNotice_follow (p : PointNo) (new : PointState) :
    SlotsFollow s (s.csuNotice p new) := by
  refine .foldl (fun s k => ?_) allSlots s
  unfold State.noticeSlot
  split
  · exact .refl s
  · next hk =>
    split
    · exact .refl s
    · split
      · next hp => exact State.proveSlot_follow hk hp.1 _
      · exact .refl s

theorem State.endProving_follow (k : SlotNo) (sl : Slot) (due : Time) :
    SlotsFollow s (s.endProving k sl due) := by
  unfold State.endProving
  dsimp only
  refine SlotsFollow.trans ?_ (State.freeSlot_follow _ k)
  split
  · exact (State.issue_frame _ _ _ _).slotsFollow.trans (State.setCode_frame _ _ _ _).slotsFollow
  · exact (State.issue_frame _ _ _ _).slotsFollow

theorem State.csuReadback_follow (m : ModuleNo) (levels : BitVec 32) (t : Time) :
    SlotsFollow s (s.csuReadback m levels t) := by
  refine .foldl (fun s k => ?_) allSlots s
  unfold State.confirmSlot
  split
  · exact .refl s
  · split
    · split
      · exact .refl s
      · split
        · exact (s.issue_frame _ _ _).freeSlot_follow k
        · exact .refl s
    · exact .refl s

theorem State.csuChannelFault_follow (m : ModuleNo) (ch : ChannelNo) (t : Time) :
    SlotsFollow s (s.csuChannelFault m ch t) := by
  unfold State.csuChannelFault
  split
  · exact .refl s
  · split
    · exact .refl s
    · exact (s.issueIfOpen_frame _ _ _).freeSlot_follow _

theorem State.csuModuleLost_follow (m : ModuleNo) (t : Time) :
    SlotsFollow s (s.csuModuleLost m t) := by
  refine .foldl (fun s k => ?_) allSlots s
  unfold State.loseSlot
  split
  · exact .refl s
  · split
    · exact (s.issueIfOpen_frame _ _ _).freeSlot_follow k
    · exact .refl s

theorem State.cancelSlot_follow (k : SlotNo) (sl : Slot) (e : Time) :
    SlotsFollow s (s.cancelSlot k sl e) := by
  have issued := (s.issueIfOpen_frame sl .cancelled e).slotsFollow
  unfold State.cancelSlot
  dsimp only
  refine SlotsFollow.trans ?_ (State.freeSlot_follow _ k)
  split
  · exact issued.trans (State.setCode_frame _ _ _ _).slotsFollow
  · exact issued.trans (State.setCode_frame _ _ _ _).slotsFollow
  · exact issued
  · exact issued

theorem State.csuSilence_follow (e : Time) : SlotsFollow s (s.csuSilence e) := by
  refine (SlotsFollow.foldl (fun s k => ?_) allSlots s).trans (State.dropFlashing_frame _).slotsFollow
  unfold State.silenceSlot
  split
  · exact .refl s
  · dsimp only
    refine SlotsFollow.trans ?_ (State.freeSlot_follow _ k)
    split
    · exact (s.issueIfOpen_frame _ _ _).slotsFollow.trans (State.setCode_frame _ _ _ _).slotsFollow
    · exact (s.issueIfOpen_frame _ _ _).slotsFollow

theorem State.oduReadback_follow (m : ModuleNo) (levels : BitVec 32) (t : Time) :
    SlotsFollow s (s.oduReadback m levels t) := by
  unfold State.oduReadback
  refine SlotsFollow.trans ?_ (State.csuReadback_follow _ m levels t)
  split
  · refine .foldl (fun s ch => ?_) _ s
    unfold State.superviseChannel
    split
    · exact .refl s
    · have stored (c : Channel) := (s.setChannel_frame m ch c).slotsFollow
      split
      · exact stored _
      · exact ((stored _).trans (State.hand_frame _ _ _).slotsFollow).trans
          (State.csuChannelFault_follow _ m ch t)
      · exact (stored _).trans (State.hand_frame _ _ _).slotsFollow
  · exact .refl s

/-! ### PE (Chapter 1) -/

theorem State.handOn_follow (p : PointNo) (new : PointRecord) (t : Time) (x : PointExtra) :
    SlotsFollow s (s.handOn p new t x) := by
  have stored := (s.storePoint_frame p (s.pointRec p) new t x).slotsFollow
  unfold State.handOn
  dsimp only
  split
  · exact stored.trans (State.csuNotice_follow _ p _)
  · exact stored

theorem State.losePoint_follow (p : PointNo) (t : Time) : SlotsFollow s (s.losePoint p t) := by
  unfold State.losePoint
  dsimp only
  split
  · exact (s.setPointRec_frame _ _).slotsFollow
  · exact s.handOn_follow _ _ _ _

theorem State.takeArrival_follow (arr : BankImage) (rest : List BankImage) :
    SlotsFollow s (s.takeArrival arr rest) := by
  have evaluated : SlotsFollow s ((s.pointsOn arr.mod).foldl (fun s p => s.arriveAt arr p) s) := by
    refine .foldl (fun s p => ?_) _ s
    unfold State.arriveAt
    dsimp only
    split
    · split
      · exact .refl s
      · exact (s.handOn_follow _ _ _ _).trans (State.traceSample_frame _ _ _ _).slotsFollow
    · exact s.losePoint_follow p _
  exact (evaluated.trans (.of_same rfl)).trans (State.ageArrival_frame _ _ _).slotsFollow

theorem noticePoints_follow (t : Time) (l : List PointNo) (acc : State × List PointNo) :
    SlotsFollow acc.1 (l.foldl (noticePoint t) acc).1 := by
  induction l generalizing acc with
  | nil => exact .refl _
  | cons p l ih =>
    refine SlotsFollow.trans ?_ (ih _)
    unfold noticePoint
    dsimp only
    split
    · exact .refl _
    · exact acc.1.losePoint_follow p t

theorem State.moduleNotice_follow (m : ModuleNo) (t : Time) :
    SlotsFollow s (s.moduleNotice m t) :=
  (noticePoints_follow t (s.pointsOn m) (s, [])).trans (State.ageNotice_frame _ _ _).slotsFollow

/-! ### The end of a scan (R78 to R84) -/

theorem State.stateNotices_follow (m : ModuleNo) (new : ModuleState) (t : Time) :
    SlotsFollow s (s.stateNotices m new t) := by
  unfold State.stateNotices
  split
  · exact s.moduleNotice_follow m t
  · split
    · exact (s.oduModuleLost_frame m).slotsFollow.trans (State.csuModuleLost_follow _ m t)
    · exact .refl s
  · exact .refl s

/-- A module's new record with what a change of its state hands on (R84). -/
theorem State.storeModule_follow (m : ModuleNo) (r : ModuleRec) (old new : ModuleState) (t : Time)
    (c : Prop) [Decidable c] {notice : State → State} (hn : ∀ u, SlotsFollow u (notice u)) :
    let stored := (s.setModuleRec m r).moduleRecord m old new t
    SlotsFollow s (if c then notice stored else stored) := by
  intro stored
  have follows : SlotsFollow s stored :=
    (s.setModuleRec_frame m r).slotsFollow.trans (State.moduleRecord_frame _ _ _ _ _).slotsFollow
  split
  · exact follows.trans (hn _)
  · exact follows

theorem State.missScan_follow (m : ModuleNo) (t : Time) : SlotsFollow s (s.missScan m t) :=
  (s.storeModule_follow m _ _ _ t _ fun u => u.stateNotices_follow m _ t).trans
    (State.endScan_frame _ m).slotsFollow

theorem State.acceptInput_follow (m : ModuleNo) (levels : BitVec 64) (wetting : Bool) (t : Time) :
    SlotsFollow s (s.acceptInput m levels wetting t) := by
  have noticed (r : ModuleRec) (c : Prop) [Decidable c] :=
    s.storeModule_follow m r (s.moduleRec m).state r.state t c fun u => u.moduleNotice_follow m t
  unfold State.acceptInput
  dsimp only
  refine SlotsFollow.trans ?_ (State.endScan_frame _ m).slotsFollow
  split
  · exact (noticed _ _).trans (State.placeImage_frame _ _).slotsFollow
  · exact noticed _ _

theorem State.acceptDrive_follow (m : ModuleNo) (levels : BitVec 32) (t : Time) :
    SlotsFollow s (s.acceptDrive m levels t) := by
  have noticed (r : ModuleRec) (c : Prop) [Decidable c] := s.storeModule_follow m r
    (s.moduleRec m).state r.state t c fun u => u.stateNotices_follow m r.state t
  unfold State.acceptDrive
  dsimp only
  exact ((noticed _ _).trans (State.oduReadback_follow _ m levels t)).trans
    (State.endScan_frame _ m).slotsFollow

theorem State.judgeReply_follow (m : ModuleNo) (use : Use) (data : List Byte) :
    SlotsFollow s (s.judgeReply m use data) := by
  unfold State.judgeReply
  dsimp only
  split
  · exact s.missScan_follow m _
  · split
    · exact s.acceptInput_follow m _ _ _
    · exact s.acceptDrive_follow m _ _
    · exact .refl s

/-- A counter of the polled module raised, and the attempt failed (R76 to R78). -/
theorem State.countFailure_follow (clock : Micros) (m : ModuleNo) (r : ModuleRec) (c : Cycle)
    (sc : Scan) (t : Time) :
    SlotsFollow s (((s.setLineClock clock).setModuleRec m r).failAttempt c sc t) := by
  have counted : SlotsFollow s ((s.setLineClock clock).setModuleRec m r) := .of_same rfl
  rcases State.failAttempt_cases ((s.setLineClock clock).setModuleRec m r) c sc t with
    ⟨-, e⟩ | ⟨-, e⟩
  · rw [e]; exact counted.trans (State.setCycle_frame _ _).slotsFollow
  · rw [e]; exact counted.trans (State.missScan_follow _ sc.mod t)

variable {s}

theorem State.takeReply_follow {use : Use} {reply : Reply} (h : s.takeReply use reply = some t) :
    SlotsFollow s t := by
  unfold State.takeReply at h
  split at h
  · cases h
  · dsimp only at h
    split at h
    · cases h
    · split at h
      · cases h; exact s.countFailure_follow _ _ _ _ _ _
      · cases h; exact s.countFailure_follow _ _ _ _ _ _
      · split at h
        · cases h
          exact (s.setLineClock_frame _).slotsFollow.trans (State.judgeReply_follow _ _ _ _)
        · cases h

/-! ### Telegrams obeyed by their owners -/

theorem SlotsFollow.answer (h : SlotsFollow s t) (request : Byte) (status : AnswerStatus)
    (payload : List Byte := []) : SlotsFollow s (t.answer request status payload) :=
  h.trans (.of_same rfl)

variable (s)

theorem State.takeCancel_follow (request : Byte) (c : ControlNo) :
    SlotsFollow s (s.takeCancel request c) := by
  unfold State.takeCancel
  split
  · exact .of_same rfl
  · split
    · exact .of_same rfl
    · exact (s.cancelSlot_follow _ _ _).answer _ _ _

theorem State.takeModeRequest_follow (request : Byte) (named : Nat) :
    SlotsFollow s (s.takeModeRequest request named) := by
  unfold State.takeModeRequest
  split
  · exact .of_same rfl
  · next v hv =>
    refine SlotsFollow.answer ?_ _ _ _
    unfold State.requestMode at hv
    split at hv
    · cases hv; exact .refl s
    · cases hv; exact s.leaveMaintenance_frame.slotsFollow
    · split at hv
      · cases hv; exact .of_same rfl
      · cases hv
    · split at hv
      · cases hv; exact .refl s
      · cases hv
    · cases hv

theorem State.takeTableRead_follow (request : Byte) (body : List Byte) :
    SlotsFollow s (s.takeTableRead request body) := by
  unfold State.takeTableRead
  split <;> exact .of_same rfl

theorem State.takeCommit_follow (request : Byte) : SlotsFollow s (s.takeCommit request) := by
  unfold State.takeCommit
  split
  · exact .of_same rfl
  · split
    · exact .of_same rfl
    · split
      · exact .of_same rfl
      · split
        · exact s.swap_frame.slotsFollow
        · exact .of_same rfl

theorem State.takeSubstitute_follow (request : Byte) (number code : Nat) :
    SlotsFollow s (s.takeSubstitute request number code) := by
  unfold State.takeSubstitute
  split
  · exact .of_same rfl
  · exact (s.imposeSubstitute_frame _ _).slotsFollow.answer _ _ _

theorem State.takeRelease_follow (request : Byte) (number : Nat) :
    SlotsFollow s (s.takeRelease request number) := by
  unfold State.takeRelease
  split
  · exact .of_same rfl
  · split
    · exact .of_same rfl
    · exact (s.removeSubstitute_frame _).slotsFollow.answer _ _ _

theorem State.takeTraceSelect_follow (request : Byte) (number : Nat) :
    SlotsFollow s (s.takeTraceSelect request number) := by
  unfold State.takeTraceSelect
  split
  · exact .of_same rfl
  · split <;> exact .of_same rfl

theorem State.takeDiagRead_follow (x : RxTelegram) (selector count : Nat)
    (contents : State → Fin count → List Byte) :
    SlotsFollow s (s.takeDiagRead x selector count contents) := by
  unfold State.takeDiagRead
  dsimp only
  split
  · exact .of_same rfl
  · split <;> exact .of_same rfl

/-- No slot is occupied after a reset (R104). -/
theorem State.takeReset_follow (key : KeyLevel) : SlotsFollow s (s.takeReset key) := by
  intro k b hb
  cases hb

/-! ### Events and commands -/

variable {s}

/-- The slots follow an event if they follow its own effect. -/
theorem SlotsFollow.occur {event : State → Option State} (ht : s.occur event = .next t)
    (he : ∀ u, event s = some u → SlotsFollow s u) : SlotsFollow s t := by
  rcases s.occur_cases ht with rfl | ⟨u, -, hu, rfl⟩
  · exact .refl _
  · exact (he u hu).trans u.transmitNext_frame.slotsFollow

/-- An event that takes place under a condition. -/
theorem SlotsFollow.occur_if {c : Prop} [Decidable c] {v : State}
    (ht : (s.occur fun _ => if c then some v else none) = .next t) (hv : SlotsFollow s v) :
    SlotsFollow s t := by
  refine .occur ht fun u hu => ?_
  split at hu
  · cases hu; exact hv
  · cases hu

/-- The slots follow the dispatch of a telegram if they follow what its owner does. -/
theorem SlotsFollow.dispatch {k : DeskKind} {takes : List Byte → Bool}
    {owner : RxTelegram → State → State} (ht : s.occur (State.dispatch k takes owner) = .next t)
    (ho : ∀ x u, SlotsFollow u (owner x u)) : SlotsFollow s t := by
  refine .occur ht fun u hu => ?_
  obtain ⟨x, -, -, -, ⟨-, rfl⟩ | ⟨-, -, rfl⟩ | ⟨-, -, rfl⟩⟩ := s.dispatch_cases hu
  · exact .of_same rfl
  · exact .of_same rfl
  · exact s.freeBuffer_frame.slotsFollow.trans (ho x _)

theorem execUnknownKind_follow (ht : execUnknownKind s = .next t) : SlotsFollow s t := by
  refine .occur ht fun u hu => ?_
  split at hu
  · cases hu
  · split at hu
    · cases hu; exact .of_same rfl
    · cases hu

theorem execIdleIntervalExpiry_follow (ht : execIdleIntervalExpiry s = .next t) :
    SlotsFollow s t := by
  refine .occur ht fun u hu => ?_
  unfold State.idleWork at hu
  split at hu
  · split at hu
    · cases hu; exact .refl s
    · split at hu
      · cases hu
      · split at hu
        · cases hu; exact .refl s
        · cases hu; exact .of_same rfl
  · cases hu

theorem execKeyWithdrawal_follow {stood : Nat} (ht : execKeyWithdrawal stood s = .next t) :
    SlotsFollow s t := by
  have withdrawn : SlotsFollow s (s.setKey .withdrawn) := .of_same rfl
  refine .occur_if ht ?_
  split
  · exact withdrawn.trans (State.leaveMaintenance_frame _).slotsFollow
  · exact withdrawn

theorem execCycleStart_follow (ht : execCycleStart s = .next t) : SlotsFollow s t := by
  refine .occur ht fun u hu => ?_
  split at hu
  · split at hu
    · cases hu; exact (s.startCycle_frame false).slotsFollow
    · split at hu
      · cases hu
      · cases hu; exact .of_same rfl
  · cases hu

theorem execCommitSwap_follow (ht : execCommitSwap s = .next t) : SlotsFollow s t := by
  refine .occur ht fun u hu => ?_
  split at hu
  · cases hu
  · cases hu; exact s.swap_frame.slotsFollow.trans (State.endHold_frame _).slotsFollow

theorem execInputPoll_follow (ht : execInputPoll s = .next t) : SlotsFollow s t := by
  refine .occur ht fun u hu => ?_
  split at hu
  · cases hu
  · cases hu; exact .of_same rfl

theorem execDrivePoll_follow (ht : execDrivePoll s = .next t) : SlotsFollow s t := by
  refine .occur ht fun u hu => ?_
  split at hu
  · cases hu
  · next m _ _ => cases hu; exact (s.recordSentCodes_frame m).slotsFollow.trans (.of_same rfl)

theorem execReplyFirstByte_follow {byte : FirstByte} (ht : execReplyFirstByte byte s = .next t) :
    SlotsFollow s t := by
  refine .occur ht fun u hu => ?_
  split at hu
  · cases hu
  · split at hu
    · cases hu; exact .of_same rfl
    · cases hu

theorem execReplyTimeout_follow {clock : Micros} (ht : execReplyTimeout clock s = .next t) :
    SlotsFollow s t := by
  refine .occur ht fun u hu => ?_
  split at hu
  · cases hu
  · split at hu
    · cases hu; exact s.countFailure_follow _ _ _ _ _ _
    · cases hu

theorem execReplySilence_follow {clock : Micros} (ht : execReplySilence clock s = .next t) :
    SlotsFollow s t := by
  refine .occur ht fun u hu => ?_
  split at hu
  · cases hu
  · split at hu
    · cases hu; exact s.countFailure_follow _ _ _ _ _ _
    · cases hu

theorem execInputReply_follow {reply : Reply} (ht : execInputReply reply s = .next t) :
    SlotsFollow s t :=
  .occur ht fun _ => State.takeReply_follow

theorem execDriveReply_follow {reply : Reply} (ht : execDriveReply reply s = .next t) :
    SlotsFollow s t :=
  .occur ht fun _ => State.takeReply_follow

theorem execImageArrival_follow (ht : execImageArrival s = .next t) : SlotsFollow s t := by
  refine .occur ht fun u hu => ?_
  split at hu
  · cases hu
  · split at hu
    · cases hu
    · cases hu; exact s.takeArrival_follow _ _

/-- A slot whose pulse end has fallen due is occupied (R104). -/
theorem State.slot_of_pulseDue {due : Time} (h : s.pulseDue k = some (sl, due)) :
    s.slot k = some sl := by
  unfold State.pulseDue at h
  split at h
  · cases h
  · next hk =>
    split at h
    · cases h
    · split at h
      · cases h; exact hk
      · cases h

theorem execPulseEnd_follow (ht : execPulseEnd k s = .next t) : SlotsFollow s t := by
  refine .occur ht fun u hu => ?_
  obtain ⟨⟨sl, due⟩, hd, rfl⟩ := Option.map_eq_some_iff.1 hu
  exact State.endPulse_follow (State.slot_of_pulseDue hd) due

theorem execProvingDeadline_follow (ht : execProvingDeadline k s = .next t) : SlotsFollow s t := by
  refine .occur ht fun u hu => ?_
  obtain ⟨⟨sl, due⟩, -, rfl⟩ := Option.map_eq_some_iff.1 hu
  exact s.endProving_follow k sl due

/-- Of all commands CONTROL alone can occupy a slot. -/
theorem exec_follow {c : Instr} (hc : c ≠ .control) (ht : exec c s = .next t) : SlotsFollow s t := by
  cases c with
  | control => exact absurd rfl hc
  | powerOnReset key => cases ht; exact s.takeReset_follow key
  | receiveTelegram bytes =>
    refine .occur_if ht ?_
    split <;> exact .of_same rfl
  | receiveTruncated gap => exact .occur_if ht (.of_same rfl)
  | unknownKind => exact execUnknownKind_follow ht
  | cancel => exact .dispatch ht fun _ u => u.takeCancel_follow _ _
  | interrogate => exact .dispatch ht fun _ _ => .of_same rfl
  | timeSet => exact .dispatch ht fun _ _ => .of_same rfl
  | modeRequestOperate => exact .dispatch ht fun _ u => u.takeModeRequest_follow _ _
  | modeRequestMaintenance => exact .dispatch ht fun _ u => u.takeModeRequest_follow _ _
  | modeRequestNeither => exact .dispatch ht fun _ u => u.takeModeRequest_follow _ _
  | tableWrite => exact .dispatch ht fun _ _ => .of_same rfl
  | tableRead => exact .dispatch ht fun _ u => u.takeTableRead_follow _ _
  | tableCommit => exact .dispatch ht fun _ u => u.takeCommit_follow _
  | substitute => exact .dispatch ht fun _ u => u.takeSubstitute_follow _ _ _
  | release => exact .dispatch ht fun _ u => u.takeRelease_follow _ _
  | traceSelectPoint => exact .dispatch ht fun _ u => u.takeTraceSelect_follow _ _
  | traceSelectNone => exact .dispatch ht fun _ _ => .of_same rfl
  | counterClear => exact .dispatch ht fun _ _ => .of_same rfl
  | restart => exact .dispatch ht fun _ _ => .of_same rfl
  | restartReset key => exact .occur_if ht (s.takeReset_follow key)
  | diagReadPoint => exact .dispatch ht fun x u => u.takeDiagRead_follow x _ _ _
  | diagReadGroup => exact .dispatch ht fun x u => u.takeDiagRead_follow x _ _ _
  | diagReadModule => exact .dispatch ht fun x u => u.takeDiagRead_follow x _ _ _
  | diagReadSlot => exact .dispatch ht fun x u => u.takeDiagRead_follow x _ _ _
  | diagReadPart =>
    refine .dispatch ht fun _ _ => ?_
    split <;> exact .of_same rfl
  | transmitEnd => exact .occur_if ht (.of_same rfl)
  | idleIntervalExpiry => exact execIdleIntervalExpiry_follow ht
  | deskSilenceExpiry =>
    refine .occur_if ht (SlotsFollow.trans ?_ (State.csuSilence_follow _ _))
    exact .of_same rfl
  | keyWithdrawal stood => exact execKeyWithdrawal_follow ht
  | keyPresented stood => exact .occur_if ht (.of_same rfl)
  | cycleStart => exact execCycleStart_follow ht
  | commitSwap => exact execCommitSwap_follow ht
  | inputPoll => exact execInputPoll_follow ht
  | drivePoll => exact execDrivePoll_follow ht
  | replyTimeout clock => exact execReplyTimeout_follow ht
  | replySilence clock => exact execReplySilence_follow ht
  | inputReply reply => exact execInputReply_follow ht
  | driveReply reply => exact execDriveReply_follow ht
  | imageArrival => exact execImageArrival_follow ht
  | pulseEnd k => exact execPulseEnd_follow ht
  | provingDeadline k => exact execProvingDeadline_follow ht
  | receiveOverlong length => exact .occur_if ht (.of_same rfl)
  | syncByte => exact .occur_if ht (.of_same rfl)
  | replyFirstByte byte => exact execReplyFirstByte_follow ht
  | resetAsserted => cases ht; exact .of_same rfl

/-! ### An accepted CONTROL (R106) -/

/-- A sound slot may be occupied for a channel that no slot owns. -/
theorem State.SlotsSound.setSlot (h : s.SlotsSound) {b : Slot} (hb : b.sound)
    (free : s.ownerOf b.mod b.channel = none) (k : SlotNo) :
    (s.setSlot k (some b)).SlotsSound := by
  have unowned := (s.ownerOf_eq_none _ _).1 free
  constructor
  · intro i j x y hx hy hm hc
    rw [State.slot_setSlot] at hx hy
    split at hx <;> split at hy
    · next hi hj => exact hi.trans hj.symm
    · cases hx; exact absurd ⟨hm.symm, hc.symm⟩ (unowned j y hy)
    · cases hy; exact absurd ⟨hm, hc⟩ (unowned i x hx)
    · exact h.oneOwner i j x y hx hy hm hc
  · intro j x hx
    rw [State.slot_setSlot] at hx
    split at hx
    · cases hx; exact hb
    · exact h.phases j x hx

theorem State.SlotsSound.takeControl (h : s.SlotsSound) (c : ControlNo) :
    (s.takeControl c).SlotsSound := by
  unfold State.takeControl
  split
  · exact (s.issue_frame _ _ _).slotsFollow.slotsSound h
  · next k accepted =>
    have occupied := h.setSlot (CommandEntry.slotAt_sound _ c s.now)
      (s.ownerOf_of_accepted accepted) k
    exact (State.setCode_frame _ _ _ _).slotsFollow.slotsSound occupied

theorem execControl_slotsSound (h : s.SlotsSound) (ht : execControl s = .next t) : t.SlotsSound := by
  rcases s.occur_cases ht with rfl | ⟨u, -, hu, rfl⟩
  · exact h
  · refine u.transmitNext_frame.slotsFollow.slotsSound ?_
    obtain ⟨x, -, -, -, ⟨-, rfl⟩ | ⟨-, -, rfl⟩ | ⟨-, -, rfl⟩⟩ := s.dispatch_cases hu
    · exact (s.freeBuffer_frame.slotsFollow.answer _ _).slotsSound h
    · exact (s.freeBuffer_frame.slotsFollow.answer _ _).slotsSound h
    · exact (s.freeBuffer_frame.slotsFollow.slotsSound h).takeControl _

theorem exec_slotsSound (c : Instr) (h : s.SlotsSound) (ht : exec c s = .next t) : t.SlotsSound := by
  by_cases hc : c = .control
  · subst hc; exact execControl_slotsSound h ht
  · exact (exec_follow hc ht).slotsSound h

/-- What the part finishes on an empty queue leaves the slots alone (R58, R146). -/
theorem State.unfinished_follow (h : s.unfinished = some t) : SlotsFollow s t := by
  unfold State.unfinished at h
  split at h
  · cases h
  · split at h
    · cases h
      exact s.ageFinish_frame.slotsFollow.trans (State.transmitNext_frame _).slotsFollow
    · split at h
      · cases h
        exact SlotsFollow.trans (.of_same rfl) (State.transmitNext_frame _).slotsFollow
      · cases h

variable (s) in
theorem State.tick_follow : SlotsFollow s s.tick := by
  unfold State.tick
  split
  · exact .refl s
  · exact .of_same rfl

end Follow

/-- Settles O57: a step is a command, what is left unfinished, or a millisecond; CONTROL alone occupies slots. -/
theorem everyStepKeepsTheSlotsSound : Obligations.EveryStepKeepsTheSlotsSound := by
  intro s t h ht
  rcases step_cases ht with ⟨c, rest, -, hc⟩ | ⟨-, hu | ⟨-, ⟨c, -, hc⟩ | ⟨-, rfl⟩⟩⟩
  · have queue : SlotsFollow s { s with pending := rest } := .of_same rfl
    exact exec_slotsSound c (queue.slotsSound h) hc
  · exact (State.unfinished_follow hu).slotsSound h
  · exact exec_slotsSound c h hc
  · exact s.tick_follow.slotsSound h

end Sys2Proof.Machine

/-! PROOFS. The command path: the first failing check of a CONTROL (R105), CANCEL (R114) and the pulse end
(R108). -/

namespace Sys2Proof.Machine

variable {s : State} {k : SlotNo} {sl : Slot}

/-! ### A CONTROL that is not accepted (R105) -/

theorem controlOf_u8 (c : ControlNo) : controlOf (u8 c) = c := by
  apply Fin.ext
  simp [controlOf, byteAt, u8]

theorem State.takeControl_of_failing {c : ControlNo} {passed : Bool} {result : CommandResult}
    (h : (s.controlChecks c).find? (fun check => !check.1) = some (passed, result)) :
    s.takeControl c = s.hand s.now (.commandResult c result) := by
  have judged : s.judgeControl c = .error result := by rw [State.judgeControl_eq, judgeChecks, h]
  unfold State.takeControl
  rw [judged]
  rfl

/-- Settles O9: the dispatched CONTROL is judged by the first failing check of R105. -/
theorem firstFailingCheckDecidesControl : Obligations.FirstFailingCheckDecidesControl := by
  intro s received rest c passed result h e failing
  have obeyed : exec .control s =
      .next ((s.answered rest []).takeControl (controlOf (u8 c))).transmitNext :=
    h.dispatch_eq rfl _
  rw [obeyed, controlOf_u8, State.takeControl_of_failing (s := s.answered rest []) failing]
  rfl

/-! ### CANCEL (R114) -/

theorem State.slotOfControl_eq_none {c : ControlNo} :
    s.slotOfControl c = none ↔ ∀ k sl, s.slot k = some sl → sl.control ≠ c := by
  unfold State.slotOfControl allSlots
  rw [find_finRange_eq_none]
  refine forall_congr' fun k => ?_
  cases s.slot k <;> simp

/-- The lowest slot that holds a control. -/
theorem State.slotOfControl_eq_some {c : ControlNo} (hk : s.slot k = some sl) (hc : sl.control = c)
    (lowest : ∀ j a, j < k → s.slot j = some a → a.control ≠ c) : s.slotOfControl c = some k := by
  unfold State.slotOfControl allSlots
  rw [find_finRange_eq_some]
  refine ⟨by simp [hk, hc], fun j hj => ?_⟩
  cases ha : s.slot j with
  | none => rfl
  | some a => simpa using lowest j a hj ha

theorem State.issueIfOpen_eq (s : State) (sl : Slot) (r : CommandResult) (t : Time) :
    s.issueIfOpen sl r t =
      if sl.phase = .finishing then s else s.hand t (.commandResult sl.control r) := by
  unfold State.issueIfOpen State.issue
  cases sl.phase <;> rfl

theorem State.cancelSlot_eq (s : State) (k : SlotNo) (sl : Slot) (t : Time) :
    s.cancelSlot k sl t =
      let q := if sl.phase = .finishing then s else s.hand t (.commandResult sl.control .cancelled)
      let d := if sl.mode = .pulse ∨ sl.mode = .flash then q.setCode sl.mod sl.channel .off else q
      d.setSlot k none := by
  unfold State.cancelSlot
  rw [State.issueIfOpen_eq]
  cases sl.mode <;> rfl

/-- Settles O10: the dispatched CANCEL finds the slot of its control, or none. -/
theorem cancelEndsTheSlotOfItsControl : Obligations.CancelEndsTheSlotOfItsControl := by
  intro s received rest c h
  have obeyed : exec .cancel s =
      .next ((s.answered rest []).takeCancel 0x02 (controlOf (u8 c))).transmitNext :=
    h.dispatch_eq rfl _
  rw [controlOf_u8] at obeyed
  refine ⟨fun absent => ?_, fun k sl hk hc lowest => ?_⟩
  · have unheld : (s.answered rest []).slotOfControl c = none := State.slotOfControl_eq_none.2 absent
    rw [obeyed, State.takeCancel, unheld]
    rfl
  · have found : (s.answered rest []).slotOfControl c = some k :=
      State.slotOfControl_eq_some hk hc lowest
    have held : (s.answered rest []).slot k = some sl := hk
    have taken : (s.answered rest []).takeCancel 0x02 c =
        ((s.answered rest []).cancelSlot k sl s.now).answer 0x02 .accepted (u8 c) := by
      rw [State.takeCancel, found]
      simp only [held]
      rfl
    rw [obeyed, taken, State.cancelSlot_eq, hc]

/-! ### The pulse end (R108) -/

theorem State.pulseDue_eq {due : Time} (hk : s.slot k = some sl) (hp : sl.pulseEnd = some due)
    (hd : reached due s.now = true) : s.pulseDue k = some (sl, due) := by
  simp [State.pulseDue, hk, hp, hd]

theorem execPulseEnd_of_due {due : Time} (running : s.Running) (h : s.pulseDue k = some (sl, due)) :
    execPulseEnd k s = .next (s.endPulse k sl due).transmitNext := by
  unfold execPulseEnd
  exact State.occur_eq running (by rw [h]; rfl)

/-- Settles O11: the pulse end that has fallen due takes place, and acts by the slot's phase. -/
theorem pulseEndActsByPhase : Obligations.PulseEndActsByPhase := by
  intro s k sl due running hk hp hd off
  have ended : exec (.pulseEnd k) s = .next (s.endPulse k sl due).transmitNext :=
    execPulseEnd_of_due running (State.pulseDue_eq hk hp hd)
  refine ⟨fun phase => ?_, fun phase => ?_, fun phase => ?_⟩
  · rw [ended, State.endPulse, phase]; rfl
  · rw [ended, State.endPulse, phase]; rfl
  · rw [ended, State.endPulse, phase]

end Sys2Proof.Machine

/-! PROOFS. The mode and the tables: MODE_REQUEST with the withdrawal of a pending commit and the end of a hold
(R156, R157, R72), and TABLE_READ (R152). -/

namespace Sys2Proof.Machine

variable {s : State}

/-! ### The end of a hold (R72, R157) -/

/-- What a late start leaves of the grid and the line clock (R69, R76). -/
theorem State.startCycle_line (s : State) (late : Bool) :
    (s.startCycle late).slc.gridOrigin = s.slc.gridOrigin ∧
      (s.startCycle late).slc.lineClock = s.slc.lineClock := by
  rcases s.startCycle_cases late with ⟨-, h⟩ | ⟨_, -, h⟩ <;> rw [h] <;> exact ⟨rfl, rfl⟩

theorem State.finishIfDone_line (s : State) :
    s.finishIfDone.slc.gridOrigin = s.slc.gridOrigin ∧
      s.finishIfDone.slc.lineClock = s.slc.lineClock := by
  rcases s.finishIfDone_cases with h | ⟨_, -, -, -, -, ⟨-, h⟩ | ⟨-, h⟩⟩
  · rw [h]; exact ⟨rfl, rfl⟩
  · rw [h]; exact ⟨rfl, rfl⟩
  · rw [h]; exact (s.setCycle none).startCycle_line true

/-- A cycle with a used module or a scan left does not finish (R70). -/
theorem State.finishIfDone_of_unfinished {c : Cycle} (hc : s.slc.cycle = some c)
    (left : (∃ m : ModuleNo, c.next ≤ m.val ∧ s.useOf m ≠ .unused) ∨ c.scan ≠ none) :
    s.finishIfDone = s := by
  rcases s.finishIfDone_cases with h | ⟨d, hd, -, noScan, noModule, -⟩
  · exact h
  · cases hc.symm.trans hd
    rcases left with ⟨m, hm, used⟩ | scan
    · exact absurd ((s.usedFrom_eq_none c.next).1 noModule m hm) used
    · exact absurd noScan scan

theorem State.endHold_of_idle (h : s.slc.cycle = none) : s.endHold = s := by
  simp [State.endHold, h]

theorem State.endHold_of_unheld {c : Cycle} (hc : s.slc.cycle = some c) (h : c.held = false) :
    s.endHold = s := by
  simp [State.endHold, hc, h]

theorem State.endHold_of_held {c : Cycle} (hc : s.slc.cycle = some c) (h : c.held = true) :
    s.endHold = (s.setCycle (some { c with held := false })).finishIfDone := by
  simp [State.endHold, hc, h]

theorem State.endHold_line (s : State) :
    s.endHold.slc.gridOrigin = s.slc.gridOrigin ∧ s.endHold.slc.lineClock = s.slc.lineClock := by
  unfold State.endHold
  split
  · exact ⟨rfl, rfl⟩
  · split
    · exact (s.setCycle _).finishIfDone_line
    · exact ⟨rfl, rfl⟩

/-- A cycle that has work left goes on under the same start, no longer held (R72). -/
theorem State.endHold_goesOn {c : Cycle} (hc : s.slc.cycle = some c)
    (left : (∃ m : ModuleNo, c.next ≤ m.val ∧ s.useOf m ≠ .unused) ∨ c.scan ≠ none) :
    s.endHold.slc = { s.slc with cycle := some { c with held := false } } := by
  cases held : c.held with
  | false =>
    have same : ({ c with held := false } : Cycle) = c := by rw [← held]
    rw [State.endHold_of_unheld hc held, same, ← hc]
  | true =>
    have stays := State.finishIfDone_of_unfinished
      (s := s.setCycle (some { c with held := false })) rfl left
    rw [State.endHold_of_held hc held, stays]
    rfl

theorem State.endHold_holdEnds (s : State) : s.HoldEnds s.endHold where
  idle h := by rw [State.endHold_of_idle h]
  unheld _ hc h := by rw [State.endHold_of_unheld hc h]
  goesOn _ hc left := State.endHold_goesOn hc left
  kept := ⟨s.endHold_modules, s.endHold_banks, s.endHold_line⟩

/-! ### Leaving MAINTENANCE (R156 to R158) -/

theorem State.leaveMaintenance_of_noCommit (h : s.ts.commitPending = false) :
    s.leaveMaintenance = { s with ts := { s.ts with mode := .operate } } := by
  simp [State.leaveMaintenance, State.withdrawCommit, h]

/-- The state in which the hold ends when MAINTENANCE is left with a commit pending: in OPERATE, the commit
withdrawn and the withdrawal answered (R157). -/
def State.commitWithdrawn (s : State) : State :=
  { s with ts := { s.ts with mode := .operate, commitPending := false } }.answer
    DeskKind.tableCommit.byte .withdrawn

theorem State.leaveMaintenance_of_commit (h : s.ts.commitPending = true) :
    s.leaveMaintenance = s.commitWithdrawn.endHold := by
  simp [State.leaveMaintenance, State.withdrawCommit, State.commitWithdrawn, h]

theorem State.leaveMaintenance_dli (h : s.ts.commitPending = true) :
    s.leaveMaintenance.dli =
      { s.dli with answers := s.dli.answers ++ [⟨0x08, .withdrawn, []⟩] } := by
  rw [State.leaveMaintenance_of_commit h]
  exact (State.endHold_frame _).blocks .dli (by decide)

/-- The withdrawal of a commit ends the hold of the cycle under the old bank (R72, R157). -/
theorem State.leaveMaintenance_holdEnds (h : s.ts.commitPending = true) :
    s.HoldEnds s.leaveMaintenance := by
  rw [State.leaveMaintenance_of_commit h]
  exact { s.commitWithdrawn.endHold_holdEnds with }

/-! ### MODE_REQUEST (R156) -/

section Requests

variable (s)

theorem State.requestMode_unconfigured (hm : s.ts.mode = .unconfigured) (n : Nat) :
    s.requestMode n = none := by
  simp [State.requestMode, hm]

theorem State.requestMode_operate_of_operate (hm : s.ts.mode = .operate) :
    s.requestMode 1 = some s := by
  simp [State.requestMode, hm]

theorem State.requestMode_operate_of_maintenance (hm : s.ts.mode = .maintenance) :
    s.requestMode 1 = some s.leaveMaintenance := by
  simp [State.requestMode, hm]

theorem State.requestMode_maintenance_of_withdrawn (hm : s.ts.mode = .operate)
    (hk : s.ts.key = .withdrawn) : s.requestMode 2 = none := by
  simp [State.requestMode, hm, hk]

theorem State.requestMode_maintenance_of_presented (hm : s.ts.mode ≠ .unconfigured)
    (hk : s.ts.key = .presented) :
    s.requestMode 2 = some { s with ts := { s.ts with mode := .maintenance } } := by
  cases mode : s.ts.mode with
  | unconfigured => exact absurd mode hm
  | operate => simp [State.requestMode, mode, hk]
  | maintenance =>
    have same : ({ s with ts := { s.ts with mode := .maintenance } } : State) = s := by rw [← mode]
    rw [same]
    simp [State.requestMode, mode, hk]

theorem State.requestMode_neither {n : Nat} (h1 : n ≠ 1) (h2 : n ≠ 2) : s.requestMode n = none := by
  unfold State.requestMode
  split <;> simp_all

variable {s}

theorem State.takeModeRequest_refused {n : Nat} (h : s.requestMode n = none) (request : Byte) :
    s.takeModeRequest request n = s.answer request .notPermitted := by
  rw [State.takeModeRequest, h]

theorem State.takeModeRequest_obeyed {n : Nat} {t : State} (h : s.requestMode n = some t)
    (request : Byte) :
    s.takeModeRequest request n = t.answer request .accepted (u8 t.ts.mode.code) := by
  rw [State.takeModeRequest, h]

end Requests

/-- A request for OPERATE with a commit pending: the answer to the commit joins before its own (R157). -/
theorem State.Obeys.operate_withdraws {received : Time} {rest : List RxTelegram}
    (h : s.Obeys .modeRequest [1] received rest) (hm : s.ts.mode = .maintenance)
    (hp : s.ts.commitPending = true) :
    ∃ w, exec .modeRequestOperate s = .next w.transmitNext ∧
      w.ts = { s.ts with mode := .operate, commitPending := false } ∧
      w.dli = { s.dli with
        buffers := rest
        answers := [⟨0x08, .withdrawn, []⟩, ⟨0x05, .accepted, [1]⟩] } ∧
      s.HoldEnds w ∧ Frame [.ts, .slc, .dli] s w := by
  have obeyed : exec .modeRequestOperate s =
      .next ((s.answered rest []).takeModeRequest 0x05 1).transmitNext := h.dispatch_eq rfl _
  have ts := (s.answered rest []).leaveMaintenance_ts
  have dli := State.leaveMaintenance_dli (s := s.answered rest []) hp
  have hold := State.leaveMaintenance_holdEnds (s := s.answered rest []) hp
  have taken : (s.answered rest []).takeModeRequest 0x05 1 =
      (s.answered rest []).leaveMaintenance.answer 0x05 .accepted [1] := by
    rw [State.takeModeRequest_obeyed
      ((s.answered rest []).requestMode_operate_of_maintenance hm), ts]
    rfl
  have frame : Frame [.ts, .slc, .dli] s (s.answered rest []).leaveMaintenance :=
    ((s.answered_frame rest []).mono (by decide)).trans (State.leaveMaintenance_frame _)
  refine ⟨(s.answered rest []).leaveMaintenance.answer 0x05 .accepted [1], by rw [obeyed, taken],
    ts, ?_, { hold with }, frame.trans ((State.answer_frame _ _ _ _).mono (by decide))⟩
  simp only [State.answer, dli]
  rfl

/-- Settles O17: the telegram reaches the TS, and each row of R156 is a value of `State.requestMode`. -/
theorem modeRequestFollowsItsTable : Obligations.ModeRequestFollowsItsTable := by
  intro s received rest refused
  have refuse {n : Nat} (h : (s.answered rest []).requestMode n = none) :
      (s.answered rest []).takeModeRequest 0x05 n = refused := State.takeModeRequest_refused h _
  refine ⟨fun h => ?_, fun h => ?_, fun n h1 h2 h => ?_⟩
  · have obeyed : exec .modeRequestOperate s =
        .next ((s.answered rest []).takeModeRequest 0x05 1).transmitNext := h.dispatch_eq rfl _
    refine ⟨fun hm => ?_, fun hm => ?_, fun hm hp => ?_, h.operate_withdraws⟩
    · rw [obeyed, refuse ((s.answered rest []).requestMode_unconfigured hm 1)]
    · have mode : (s.answered rest []).ts.mode = .operate := hm
      rw [obeyed, State.takeModeRequest_obeyed (State.requestMode_operate_of_operate _ mode), mode]
      rfl
    · rw [obeyed, State.takeModeRequest_obeyed
          ((s.answered rest []).requestMode_operate_of_maintenance hm),
        State.leaveMaintenance_of_noCommit (s := s.answered rest []) hp]
      rfl
  · have obeyed : exec .modeRequestMaintenance s =
        .next ((s.answered rest []).takeModeRequest 0x05 2).transmitNext := h.dispatch_eq rfl _
    refine ⟨fun hm => ?_, fun hm hk => ?_, fun hm hk => ?_⟩
    · rw [obeyed, refuse ((s.answered rest []).requestMode_unconfigured hm 2)]
    · rw [obeyed, refuse ((s.answered rest []).requestMode_maintenance_of_withdrawn hm hk)]
    · rw [obeyed, State.takeModeRequest_obeyed
        ((s.answered rest []).requestMode_maintenance_of_presented hm hk)]
      rfl
  · have notOne : n.toNat ≠ 1 := by bv_omega
    have notTwo : n.toNat ≠ 2 := by bv_omega
    have row : namesNeither [n] = true := by simp [namesNeither, num8, byteAt, notOne, notTwo]
    have obeyed : exec .modeRequestNeither s =
        .next ((s.answered rest []).takeModeRequest 0x05 n.toNat).transmitNext :=
      h.dispatch_eq row _
    rw [obeyed, refuse (State.requestMode_neither _ notOne notTwo)]

/-! ### TABLE_READ (R152) -/

theorem TableId.ofCode_eq_none (n : Nat) : TableId.ofCode n = none ↔ 6 ≤ n := by
  unfold TableId.ofCode
  split <;> simp_all
  omega

theorem State.bankOf_eq_none (n : Nat) : s.bankOf n = none ↔ 2 ≤ n := by
  unfold State.bankOf
  split <;> simp_all
  omega

theorem Tables.readEntry_eq_none (b : Tables) (table : TableId) (index : Nat) :
    b.readEntry table index = none ↔ table.entries ≤ index := by
  cases table <;> simp [Tables.readEntry, TableId.entries]; omega

/-- The fields of the body of a TABLE_READ (R170). -/
theorem State.readTable_eq (s : State) (bank table : Byte) {index : Nat} (h : index < 65536) :
    s.readTable ([bank, table] ++ u16 index) =
      (s.bankOf bank.toNat).bind fun b => (TableId.ofCode table.toNat).bind fun t =>
        (b.readEntry t index).map fun entry => [bank, table] ++ u16 index ++ entry := by
  have named : num16 ([bank, table] ++ u16 index) 2 = index := num16_u16 index h []
  have banked : num8 ([bank, table] ++ u16 index) 0 = bank.toNat := rfl
  have tabled : num8 ([bank, table] ++ u16 index) 1 = table.toNat := rfl
  rw [State.readTable, named, banked, tabled]
  cases s.bankOf bank.toNat <;> cases TableId.ofCode table.toNat <;> rfl

/-- A TABLE_READ is refused exactly for a bank, a table or an index that the TS does not hold. -/
theorem State.readTable_eq_none (s : State) (bank table : Byte) {index : Nat} (h : index < 65536) :
    s.readTable ([bank, table] ++ u16 index) = none ↔
      2 ≤ bank.toNat ∨ 6 ≤ table.toNat ∨
        ∃ t, TableId.ofCode table.toNat = some t ∧ t.entries ≤ index := by
  rw [s.readTable_eq bank table h, ← State.bankOf_eq_none (s := s), ← TableId.ofCode_eq_none]
  cases s.bankOf bank.toNat <;> cases TableId.ofCode table.toNat <;>
    simp [Tables.readEntry_eq_none]

/-- Settles O21: the payload is what `State.readTable` reads, or OUT_OF_RANGE where it reads nothing. -/
theorem tableReadAnswersTheEntry : Obligations.TableReadAnswersTheEntry := by
  intro s received rest bank table index hi h answers
  have obeyed : exec .tableRead s = .next ((s.answered rest []).takeTableRead 0x07
      ([bank, table] ++ u16 index)).transmitNext := h.dispatch_eq rfl _
  refine ⟨fun b named => ?_, fun absent => ?_⟩
  · have held : (s.answered rest []).bankOf bank.toNat = some b := by
      rcases named with ⟨rfl, rfl⟩ | ⟨rfl, rfl⟩ <;> rfl
    have read (t : TableId) (entry : List Byte) (ht : TableId.ofCode table.toNat = some t)
        (he : b.readEntry t index = some entry) : answers entry := by
      have payload : (s.answered rest []).readTable ([bank, table] ++ u16 index) =
          some ([bank, table] ++ u16 index ++ entry) := by
        rw [State.readTable_eq _ bank table hi, held, ht]
        simp only [Option.bind_some, he, Option.map_some]
      show exec .tableRead s = _
      rw [obeyed, State.takeTableRead, payload]
      rfl
    refine ⟨?_, ?_, ?_, ?_, ?_, ?_⟩
    · rintro rfl m rfl; exact read .moduleMap _ rfl (dif_pos m.isLt)
    · rintro rfl p rfl; exact read .points _ rfl (dif_pos p.isLt)
    · rintro rfl g rfl; exact read .groups _ rfl (dif_pos g.isLt)
    · rintro rfl i rfl; exact read .patterns _ rfl (dif_pos i.isLt)
    · rintro rfl c rfl; exact read .commands _ rfl (dif_pos c.isLt)
    · rintro rfl rfl; exact read .system _ rfl rfl
  · have nothing : (s.answered rest []).readTable ([bank, table] ++ u16 index) = none := by
      rw [State.readTable_eq_none _ bank table hi]
      rcases absent with hb | ht | ⟨rfl, beyond⟩ | ⟨rfl, beyond⟩ | ⟨rfl, beyond⟩ | ⟨rfl, beyond⟩ |
        ⟨rfl, beyond⟩ | ⟨rfl, beyond⟩
      · exact .inl hb
      · exact .inr (.inl ht)
      · exact .inr (.inr ⟨.moduleMap, rfl, beyond⟩)
      · exact .inr (.inr ⟨.points, rfl, beyond⟩)
      · exact .inr (.inr ⟨.groups, rfl, beyond⟩)
      · exact .inr (.inr ⟨.patterns, rfl, beyond⟩)
      · exact .inr (.inr ⟨.commands, rfl, beyond⟩)
      · exact .inr (.inr ⟨.system, rfl, beyond⟩)
    rw [obeyed, State.takeTableRead, nothing]
    rfl

end Sys2Proof.Machine

/-! PROOFS. Management telegrams without a table of their own (INTERROGATE, TIME_SET and RESTART: R128, R161,
R140), and TRACE_SELECT (R162). -/

namespace Sys2Proof.Machine

variable {s : State}

/-! ### INTERROGATE, TIME_SET and RESTART -/

theorem time32_u32 (t : Time) (rest : List Byte) : time32 (u32 t ++ rest) 0 = t := by
  apply BitVec.eq_of_toNat_eq
  have bound := t.isLt
  simp [time32, num16, num8, byteAt, u32]
  omega

/-- Settles O15: each telegram reaches its owner, TIME_SET with the time that its body lays out. -/
theorem interrogateTimeSetAndRestart : Obligations.InterrogateTimeSetAndRestart := by
  intro s received rest
  refine ⟨fun h => h.dispatch_eq rfl _, fun T h => ?_, fun h => h.dispatch_eq rfl _⟩
  have obeyed : exec .timeSet s = .next
      (((s.answered rest []).setDeskTime (time32 (u32 T) 0) received).answer 0x04
        .accepted).transmitNext := h.dispatch_eq rfl _
  have desk : time32 (u32 T) 0 = T := time32_u32 T []
  rw [obeyed, desk]
  rfl

/-! ### TRACE_SELECT (R162) -/

theorem pointOf_eq_none {n : Nat} (h : 1024 ≤ n) : pointOf n = none := dif_neg (by omega)

theorem pointOf_val (p : PointNo) : pointOf p.val = some p := dif_pos p.isLt

theorem namesTraceNone_u16 {n : Nat} (h : n < 65536) : namesTraceNone (u16 n) = true ↔ n = 65535 := by
  have named : num16 (u16 n) 0 = n := num16_u16 n h []
  have length : (u16 n).length = 2 := rfl
  simp [namesTraceNone, named, length, traceNone]

theorem namesTracePoint_u16 {n : Nat} (h : n < 65536) :
    namesTracePoint (u16 n) = true ↔ n ≠ 65535 := by
  have named : num16 (u16 n) 0 = n := num16_u16 n h []
  have length : (u16 n).length = 2 := rfl
  simp [namesTracePoint, named, length, traceNone]

theorem State.takeTraceSelect_beyond (s : State) (request : Byte) {n : Nat} (h : 1024 ≤ n) :
    s.takeTraceSelect request n = s.answer request .outOfRange := by
  rw [State.takeTraceSelect, pointOf_eq_none h]

theorem State.takeTraceSelect_undefined {p : PointNo} (h : (s.ts.active.pointEntry p).cls = .none)
    (request : Byte) : s.takeTraceSelect request p.val = s.answer request .outOfRange := by
  rw [State.takeTraceSelect, pointOf_val]
  simp [PointEntry.isDefined, h]

theorem State.takeTraceSelect_defined {p : PointNo} (h : (s.ts.active.pointEntry p).cls ≠ .none)
    (request : Byte) : s.takeTraceSelect request p.val =
      (s.selectTrace (some p)).answer request .accepted (u16 p.val) := by
  rw [State.takeTraceSelect, pointOf_val]
  simp [PointEntry.isDefined, h]

/-- A TRACE_SELECT that does not name none reaches the PE with the number that its body lays out. -/
theorem State.Obeys.traceSelectPoint_eq {received : Time} {rest : List RxTelegram} {n : Nat}
    (h : s.Obeys .traceSelect (u16 n) received rest) (hn : n < 65535) :
    exec .traceSelectPoint s =
      .next ((s.answered rest []).takeTraceSelect 0x0C n).transmitNext := by
  have obeyed : exec .traceSelectPoint s =
      .next ((s.answered rest []).takeTraceSelect 0x0C (num16 (u16 n) 0)).transmitNext :=
    h.dispatch_eq ((namesTracePoint_u16 (by omega)).2 (by omega)) _
  have named : num16 (u16 n) 0 = n := num16_u16 n (by omega) []
  rw [obeyed, named]

/-- Settles O27: the row is that of the number named, and each outcome is a value of
`State.takeTraceSelect`. -/
theorem traceSelectSetsTheSelection : Obligations.TraceSelectSetsTheSelection := by
  intro s received rest n hn h select
  refine ⟨fun isNone => h.dispatch_eq ((namesTraceNone_u16 hn).2 isNone) _,
    fun beyond notNone => ?_, ?_⟩
  · rw [h.traceSelectPoint_eq (by omega), State.takeTraceSelect_beyond _ _ beyond]
    rfl
  · rintro p rfl
    have obeyed := h.traceSelectPoint_eq (by omega)
    refine ⟨fun undefined => ?_, fun defined => ?_⟩
    · rw [obeyed, State.takeTraceSelect_undefined (s := s.answered rest []) undefined]
      rfl
    · rw [obeyed, State.takeTraceSelect_defined (s := s.answered rest []) defined]
      rfl

end Sys2Proof.Machine

/-! PROOFS. The layouts of the table entries (R168, R170, R150, R151). A reader that meets a field at the front of
the bytes reads it, and one that looks behind the field goes on in the rest; from these two kinds of equation
follows what `parse` makes of every entry as it is sent. Clamping is a matter of each field. -/

namespace Sys2Proof.Machine

/-! ### Fields at the front and behind -/

section Fields
variable (n i : Nat) (b : Bool) (rest : List Byte)

@[simp] theorem num16_behind_u16 : num16 (u16 n ++ rest) (i + 2) = num16 rest i := rfl
@[simp] theorem num16_behind_u8 : num16 (u8 n ++ rest) (i + 1) = num16 rest i := rfl
@[simp] theorem num16_behind_flag : num16 (flag b ++ rest) (i + 1) = num16 rest i := by cases b <;> rfl
@[simp] theorem num8_behind_u16 : num8 (u16 n ++ rest) (i + 2) = num8 rest i := rfl
@[simp] theorem num8_behind_u8 : num8 (u8 n ++ rest) (i + 1) = num8 rest i := rfl
@[simp] theorem num8_behind_flag : num8 (flag b ++ rest) (i + 1) = num8 rest i := by cases b <;> rfl
@[simp] theorem byteAt_behind_u16 : byteAt (u16 n ++ rest) (i + 2) = byteAt rest i := rfl
@[simp] theorem byteAt_behind_u8 : byteAt (u8 n ++ rest) (i + 1) = byteAt rest i := rfl
@[simp] theorem byteAt_behind_flag : byteAt (flag b ++ rest) (i + 1) = byteAt rest i := by
  cases b <;> rfl
@[simp] theorem drop_behind_u16 : (u16 n ++ rest).drop (i + 2) = rest.drop i := rfl
@[simp] theorem drop_behind_u8 : (u8 n ++ rest).drop (i + 1) = rest.drop i := rfl
@[simp] theorem drop_behind_flag : (flag b ++ rest).drop (i + 1) = rest.drop i := by cases b <;> rfl
@[simp] theorem tail_behind_u8 : (u8 n ++ rest).tail = rest := rfl
@[simp] theorem length_u16 : (u16 n).length = 2 := rfl
@[simp] theorem length_u8 : (u8 n).length = 1 := rfl
@[simp] theorem length_flag : (flag b).length = 1 := by cases b <;> rfl

@[simp] theorem flagOf_front : flagOf (byteAt (flag b ++ rest) 0) = some b := flagOf_flag b rest
@[simp] theorem flagOf_last : flagOf (byteAt (flag b) 0) = some b := by cases b <;> rfl

section
variable (c : Contact)

@[simp] theorem num16_behind_contact : num16 (c.bytes ++ rest) (i + 5) = num16 rest i := by
  simp [Contact.bytes]
@[simp] theorem byteAt_behind_contact : byteAt (c.bytes ++ rest) (i + 5) = byteAt rest i := by
  simp [Contact.bytes]
@[simp] theorem drop_behind_contact : (c.bytes ++ rest).drop (i + 5) = rest.drop i := by
  simp [Contact.bytes]
@[simp] theorem length_contact : c.bytes.length = 5 := by simp [Contact.bytes]

end

variable {n}

@[simp] theorem num16_front (h : n < 65536) : num16 (u16 n ++ rest) 0 = n := num16_u16 n h rest
@[simp] theorem num16_last (h : n < 65536) : num16 (u16 n) 0 = n := num16_u16 n h []

end Fields

theorem Use.ofCode_front (u : Use) (rest : List Byte) : Use.ofCode (num8 (u8 u.code ++ rest) 0) = some u := by
  cases u <;> rfl

theorem PointClass.ofCode_front (c : PointClass) (rest : List Byte) :
    PointClass.ofCode (num8 (u8 c.code ++ rest) 0) = some c := by
  cases c <;> rfl

theorem CommandMode.ofCode_front (m : CommandMode) (rest : List Byte) :
    CommandMode.ofCode (num8 (u8 m.wire ++ rest) 0) = some m := by
  cases m <;> rfl

theorem StateValue.ofCode_front (v : StateValue) (rest : List Byte) :
    StateValue.ofCode (num8 (u8 v.code ++ rest) 0) = some v := by
  cases v <;> rfl

theorem requiredOf_front (r : Option StateValue) (rest : List Byte) :
    requiredOf (num8 (u8 (requiredCode r) ++ rest) 0) = some r := by
  rcases r with _ | v
  · rfl
  · cases v <;> rfl

/-! ### Clamping -/

theorem clamp_fst {lo hi : Nat} (h : lo ≤ hi) (v : Nat) : (clamp lo hi v).1 = nearest lo hi v := by
  simp only [clamp, nearest]
  split <;> [skip; split] <;> omega

theorem clamp_snd (lo hi v : Nat) : (clamp lo hi v).2 = decide (v < lo ∨ hi < v) := by
  simp only [clamp, Bool.decide_or]

theorem clamp_snd_eq_false {lo hi v : Nat} : (clamp lo hi v).2 = false ↔ lo ≤ v ∧ v ≤ hi := by
  rw [clamp_snd, decide_eq_false_iff_not]
  omega

theorem clampSilence_fst (v : Nat) : (clampSilence v).1 =
    if v < 250 then 0 else if v < 500 then 500 else if 30000 < v then 30000 else v := by
  unfold clampSilence
  split
  · next h => rw [h]; rfl
  · split <;> [rfl; split <;> [rfl; split <;> rfl]]

theorem clampSilence_snd (v : Nat) :
    (clampSilence v).2 = false ↔ v = 0 ∨ (500 ≤ v ∧ v ≤ 30000) := by
  unfold clampSilence
  split <;> [skip; split <;> [skip; split <;> [skip; split]]] <;> simp <;> omega

theorem nearest_inside {lo hi v : Nat} (h : lo ≤ v) (h' : v ≤ hi) : nearest lo hi v = v := by
  rw [nearest, if_neg (by omega), if_neg (by omega)]

theorem nearest_zero (hi v : Nat) : nearest 0 hi v = min v hi := by
  rw [nearest, if_neg (by omega)]
  split <;> omega

theorem clampFin_snd (n v : Nat) : (clampFin n v).2 = decide (n < v) := rfl

theorem clampAspect_snd (v : Nat) : (clampAspect v).2 = decide (v < 1 ∨ 15 < v) := by
  simp only [clampAspect, Bool.decide_or]

theorem clampAspect_fst (v : Nat) : (clampAspect v).1.val = nearest 1 15 v := by
  rw [← clamp_fst (by decide)]
  rfl

theorem clampAspect_inside (a : Fin 16) (h : 1 ≤ a.val) : clampAspect a.val = (a, false) := by
  refine Prod.ext (Fin.ext ?_) ?_
  · rw [clampAspect_fst, nearest_inside h (by omega)]
  · rw [clampAspect_snd, decide_eq_false (by omega)]

/-! ### What an entry is read as -/

theorem ModuleEntry.parse_fields (use : Use) {n : Nat} (h : n < 65536) :
    ModuleEntry.parse (u8 use.code ++ u16 n) =
      some ({ use := use, address := nearest 1 62 n }, decide (n < 1 ∨ 62 < n)) := by
  simp [ModuleEntry.parse, Use.ofCode_front, h, clamp_fst, clamp_snd]

theorem Contact.parse_fields {m n : Nat} (invert : Bool) (rest : List Byte) (hm : m < 65536)
    (hn : n < 65536) : Contact.parse (u16 m ++ (u16 n ++ (flag invert ++ rest))) =
      some (⟨(clampFin 31 m).1, (clampFin 63 n).1, invert⟩, decide (31 < m ∨ 63 < n)) := by
  simp [Contact.parse, hm, hn, clampFin_snd]

theorem Contact.parse_bytes (c : Contact) (rest : List Byte) :
    Contact.parse (c.bytes ++ rest) = some (c, false) := by
  have hm : c.mod.val < 65536 := by omega
  have hn : c.contact.val < 65536 := by omega
  simp only [Contact.bytes, List.append_assoc, Contact.parse_fields c.invert rest hm hn,
    clampFin_inside]
  simp
  omega

/-- Some numeric field of the entry is outside its range. -/
def PointEntry.clamped (e : PointEntry) : Bool :=
  (clamp 0 10000 e.pickFilter).2 || (clamp 0 10000 e.dropFilter).2 || (clamp 0 10000 e.transitLimit).2 ||
    (clamp 0 10000 e.faultFilter).2 || (clamp 0 10000 e.alarmLimit).2 || (clamp 0 1000 e.flashFilter).2 ||
    (clamp 50 5000 e.halfMin).2 || (clamp 50 10000 e.halfMax).2 || (clamp 2 32 e.target).2

theorem PointEntry.clamped_eq_false {e : PointEntry} : e.clamped = false ↔ e.inRange := by
  simp only [PointEntry.clamped, PointEntry.inRange, Bool.or_eq_false_iff, clamp_snd_eq_false, Nat.zero_le,
    true_and, and_assoc]

theorem PointEntry.parse_bytes {e : PointEntry} (h : e.sendable) :
    PointEntry.parse e.bytes = some (e.limited, e.clamped) := by
  obtain ⟨pick, dropF, transit, fault, alarm, flash, halfMin, halfMax, target⟩ := h
  simp [PointEntry.parse, PointEntry.bytes, PointEntry.limited, PointEntry.clamped, Contact.parse_bytes,
    PointClass.ofCode_front, pick, dropF, transit, fault, alarm, flash, halfMin, halfMax, target, clamp_fst]

theorem PointEntry.limited_eq_self {e : PointEntry} (h : e.inRange) : e.limited = e := by
  obtain ⟨_, _, _, _, _, _, _, _, _, _, _, _⟩ := h
  simp [PointEntry.limited, nearest_inside, *]

theorem PointEntry.sendable_of_inRange {e : PointEntry} (h : e.inRange) : e.sendable := by
  simp only [PointEntry.inRange, PointEntry.sendable] at *
  omega

theorem list_of_length_six {α : Type} : ∀ {l : List α}, l.length = 6 →
    ∃ a b c d e f, l = [a, b, c, d, e, f]
  | [a, b, c, d, e, f], _ => ⟨a, b, c, d, e, f, rfl⟩

theorem vector_of_six {α : Type} (v : Vector α 6) : ∃ a b c d e f, v = #v[a, b, c, d, e, f] := by
  obtain ⟨a, b, c, d, e, f, h⟩ := list_of_length_six v.length_toList
  exact ⟨a, b, c, d, e, f, Vector.toList_inj.1 h⟩

theorem GroupEntry.parse_fields {count first patterns settle m₁ m₂ m₃ m₄ m₅ m₆ : Nat} (report : Bool)
    (hcount : count < 65536) (hfirst : first < 65536) (hpatterns : patterns < 65536)
    (hsettle : settle < 65536) (h₁ : m₁ < 65536) (h₂ : m₂ < 65536) (h₃ : m₃ < 65536) (h₄ : m₄ < 65536)
    (h₅ : m₅ < 65536) (h₆ : m₆ < 65536) :
    GroupEntry.parse (u16 count ++ [m₁, m₂, m₃, m₄, m₅, m₆].flatMap u16 ++ u16 first ++ u16 patterns ++
        u16 settle ++ flag report) =
      some (
        { memberCount := (clampFin 6 count).1
          members := #v[(clampFin 1023 m₁).1, (clampFin 1023 m₂).1, (clampFin 1023 m₃).1,
            (clampFin 1023 m₄).1, (clampFin 1023 m₅).1, (clampFin 1023 m₆).1]
          firstPattern := (clampFin 511 first).1
          patternCount := nearest 1 16 patterns
          settleTime := nearest 0 5000 settle
          report := report },
        (clampFin 6 count).2 || (clampFin 1023 m₁).2 || (clampFin 1023 m₂).2 || (clampFin 1023 m₃).2 ||
          (clampFin 1023 m₄).2 || (clampFin 1023 m₅).2 || (clampFin 1023 m₆).2 || (clampFin 511 first).2 ||
          (clamp 1 16 patterns).2 || (clamp 0 5000 settle).2) := by
  simp [GroupEntry.parse, clamp_fst, *]

theorem GroupEntry.parse_bytes {e : GroupEntry} (h : e.inRange) :
    GroupEntry.parse e.bytes = some (e, false) := by
  obtain ⟨count, members, first, patterns, settle, report⟩ := e
  obtain ⟨a, b, c, d, e, f, rfl⟩ := vector_of_six members
  obtain ⟨hlow, hhigh, hsettle⟩ := h
  dsimp only at hlow hhigh hsettle
  refine (GroupEntry.parse_fields report (patterns := patterns) (settle := settle) (by omega)
    (by omega) (by omega) (by omega) (by omega)
    (by omega) (by omega) (by omega) (by omega) (by omega)).trans ?_
  simp only [clampFin_inside, clamp_inside 1 16 patterns hlow hhigh, clamp_inside 0 5000 settle (by omega) hsettle,
    nearest_inside hlow hhigh, nearest_inside (Nat.zero_le settle) hsettle, Bool.or_false]

theorem GroupEntry.length_bytes (e : GroupEntry) : e.bytes.length = 21 := by
  simp [GroupEntry.bytes, Function.comp_def]

theorem PatternEntry.parse_fields (required : Vector (Option StateValue) 6) {aspect : Nat}
    (h : aspect < 65536) :
    PatternEntry.parse ((required.toList.map requiredCode).flatMap u8 ++ u16 aspect) =
      some ({ required := required, aspect := (clampAspect aspect).1 }, (clampAspect aspect).2) := by
  obtain ⟨a, b, c, d, e, f, rfl⟩ := vector_of_six required
  simp [PatternEntry.parse, requiredOf_front, h]

theorem PatternEntry.bytes_eq (e : PatternEntry) :
    e.bytes = (e.required.toList.map requiredCode).flatMap u8 ++ u16 e.aspect := by
  simp [PatternEntry.bytes, List.flatMap_def, Function.comp_def]

theorem CommandEntry.parse_fields (e : CommandEntry) {m n pulse point proving : Nat} (present : Bool)
    (hm : m < 65536) (hn : n < 65536) (hpulse : pulse < 65536) (hpoint : point < 65536)
    (hproving : proving < 65536) :
    CommandEntry.parse (flag e.defined ++ u16 m ++ u16 n ++ u8 e.mode.wire ++ u16 pulse ++
        flag present ++ u16 point ++ u8 e.expected.code ++ u16 proving ++ flag e.endOnProof) =
      some (
        { defined := e.defined, mod := (clampFin 31 m).1, channel := (clampFin 31 n).1, mode := e.mode,
          pulseTime := nearest 50 5000 pulse
          proving := if present then some (clampFin 1023 point).1 else none
          expected := e.expected, provingTime := nearest 100 60000 proving, endOnProof := e.endOnProof },
        (clampFin 31 m).2 || (clampFin 31 n).2 || (clamp 50 5000 pulse).2 ||
          (present && (clampFin 1023 point).2) || (clamp 100 60000 proving).2) := by
  simp [CommandEntry.parse, CommandMode.ofCode_front, StateValue.ofCode_front, clamp_fst, *]

theorem CommandEntry.bytes_eq (e : CommandEntry) : e.bytes =
    flag e.defined ++ u16 e.mod ++ u16 e.channel ++ u8 e.mode.wire ++ u16 e.pulseTime ++
      flag e.proving.isSome ++ u16 ((e.proving.map Fin.val).getD 0) ++ u8 e.expected.code ++
      u16 e.provingTime ++ flag e.endOnProof := by
  unfold CommandEntry.bytes
  cases e.proving <;> rfl

theorem CommandEntry.parse_bytes {e : CommandEntry} (h : e.inRange) :
    CommandEntry.parse e.bytes = some (e, false) := by
  obtain ⟨pulseLow, pulseHigh, provingLow, provingHigh⟩ := h
  have point : (e.proving.map Fin.val).getD 0 < 65536 := by
    cases e.proving with
    | none => decide
    | some p => exact Nat.lt_trans p.isLt (by decide)
  rw [CommandEntry.bytes_eq, CommandEntry.parse_fields e _ (by omega) (by omega) (by omega) point (by omega)]
  simp only [clampFin_inside, clamp_inside 50 5000 _ pulseLow pulseHigh,
    clamp_inside 100 60000 _ provingLow provingHigh, nearest_inside pulseLow pulseHigh,
    nearest_inside provingLow provingHigh]
  obtain ⟨defined, mod, channel, mode, pulseTime, proving, expected, provingTime, endOnProof⟩ := e
  cases proving with
  | none => rfl
  | some p => simp [clampFin_inside]

/-- Some field of the record is outside its range. -/
def SystemRecord.clamped (e : SystemRecord) : Bool :=
  (clamp 4 50 e.scanPeriod).2 || (clamp 100 2000 e.replyWindow).2 || (clamp 0 3 e.retries).2 ||
    (clamp 1 15 e.lossThreshold).2 || (clamp 1 15 e.recoveryCount).2 || (clamp 20 1000 e.settleTime).2 ||
    (clampSilence e.silenceTime).2 || (clamp 200 5000 e.idleInterval).2 || (clamp 16 248 e.watermark).2

theorem SystemRecord.clamped_eq_false {e : SystemRecord} : e.clamped = false ↔ e.inRange = true := by
  simp only [SystemRecord.clamped, SystemRecord.inRange, Bool.or_eq_false_iff, clamp_snd_eq_false,
    clampSilence_snd, Nat.zero_le, true_and, Bool.and_eq_true, Bool.or_eq_true, decide_eq_true_eq, and_assoc]

/-- The record with each field at the nearer limit of its range (R149, R151). -/
def SystemRecord.limited (e : SystemRecord) : SystemRecord :=
  { scanPeriod := nearest 4 50 e.scanPeriod
    replyWindow := nearest 100 2000 e.replyWindow
    retries := nearest 0 3 e.retries
    lossThreshold := nearest 1 15 e.lossThreshold
    recoveryCount := nearest 1 15 e.recoveryCount
    settleTime := nearest 20 1000 e.settleTime
    silenceTime :=
      if e.silenceTime < 250 then 0
      else if e.silenceTime < 500 then 500
      else if 30000 < e.silenceTime then 30000 else e.silenceTime
    idleInterval := nearest 200 5000 e.idleInterval
    watermark := nearest 16 248 e.watermark }

theorem SystemRecord.parse_bytes {e : SystemRecord}
    (h : ∀ x, x ∈ [e.scanPeriod, e.replyWindow, e.retries, e.lossThreshold, e.recoveryCount, e.settleTime,
      e.silenceTime, e.idleInterval, e.watermark] → x < 65536) :
    SystemRecord.parse e.bytes = some (e.limited, e.clamped) := by
  simp only [List.forall_mem_cons] at h
  obtain ⟨h₁, h₂, h₃, h₄, h₅, h₆, h₇, h₈, h₉, -⟩ := h
  simp [SystemRecord.parse, SystemRecord.bytes, SystemRecord.limited, SystemRecord.clamped, clamp_fst,
    clampSilence_fst, *]

theorem SystemRecord.sendable_of_inRange {e : SystemRecord} (h : e.inRange = true) :
    ∀ x, x ∈ [e.scanPeriod, e.replyWindow, e.retries, e.lossThreshold, e.recoveryCount, e.settleTime,
      e.silenceTime, e.idleInterval, e.watermark] → x < 65536 := by
  simp only [SystemRecord.inRange, Bool.and_eq_true, Bool.or_eq_true, decide_eq_true_eq] at h
  simp only [List.forall_mem_cons]
  refine ⟨?_, ?_, ?_, ?_, ?_, ?_, ?_, ?_, ?_, nofun⟩ <;> omega

theorem SystemRecord.limited_eq_self {e : SystemRecord} (h : e.inRange = true) : e.limited = e := by
  simp only [SystemRecord.inRange, Bool.and_eq_true, Bool.or_eq_true, decide_eq_true_eq, and_assoc] at h
  obtain ⟨_, _, _, _, _, _, _, _, _, _, _, silence, _, _, _, _⟩ := h
  have kept : (if e.silenceTime < 250 then 0 else if e.silenceTime < 500 then 500
      else if 30000 < e.silenceTime then 30000 else e.silenceTime) = e.silenceTime := by
    split <;> [skip; split <;> [skip; split]] <;> omega
  simp only [SystemRecord.limited, nearest_inside, Nat.zero_le, *]

/-! ### Entries that are refused -/

theorem bind_eq_none_iff_or {α β : Type} {o : Option α} {f : α → Option β} {q : Prop}
    (h : ∀ x, f x = none ↔ q) : o.bind f = none ↔ o = none ∨ q := by
  cases o with
  | none => exact iff_of_true rfl (.inl rfl)
  | some x => exact (h x).trans (by simp)

theorem bind_pure_eq_none_iff {α β : Type} {o : Option α} {f : α → β} :
    (o.bind fun x => some (f x)) = none ↔ o = none := by
  cases o <;> simp

theorem Use.ofCode_eq_none {n : Nat} : Use.ofCode n = none ↔ 3 ≤ n := by
  unfold Use.ofCode
  split <;> simp_all
  omega

theorem PointClass.ofCode_eq_none {n : Nat} : PointClass.ofCode n = Option.none ↔ 4 ≤ n := by
  unfold PointClass.ofCode
  split <;> simp_all
  omega

theorem CommandMode.ofCode_eq_none {n : Nat} : CommandMode.ofCode n = none ↔ 4 ≤ n := by
  unfold CommandMode.ofCode
  split <;> simp_all
  omega

theorem StateValue.ofCode_eq_none {n : Nat} : StateValue.ofCode n = none ↔ ¬ (1 ≤ n ∧ n ≤ 10) := by
  unfold StateValue.ofCode
  split <;> simp_all
  omega

theorem requiredOf_eq_none {n : Nat} : requiredOf n = none ↔ ¬ (1 ≤ n ∧ n ≤ 10) ∧ n ≠ 15 := by
  unfold requiredOf
  split
  · simp
  · next h => simp only [Option.map_eq_none_iff, StateValue.ofCode_eq_none, and_iff_left h]

theorem byteAt_drop (b : List Byte) (i j : Nat) : byteAt (b.drop i) j = byteAt b (i + j) := by
  simp [byteAt]

section
variable (b : List Byte)

theorem ModuleEntry.parse_eq_none : ModuleEntry.parse b = none ↔ 3 ≤ num8 b 0 :=
  bind_pure_eq_none_iff.trans Use.ofCode_eq_none

theorem Contact.parse_eq_none : Contact.parse b = none ↔ 2 ≤ num8 b 4 :=
  bind_pure_eq_none_iff.trans (flagOf_eq_none _)

theorem PointEntry.parse_eq_none :
    PointEntry.parse b = none ↔ 4 ≤ num8 b 0 ∨ 2 ≤ num8 b 5 ∨ 2 ≤ num8 b 10 ∨ 2 ≤ num8 b 11 := by
  have fields : PointEntry.parse b = none ↔ PointClass.ofCode (num8 b 0) = none ∨
      Contact.parse (b.drop 1) = none ∨ Contact.parse (b.drop 6) = none ∨ flagOf (byteAt b 11) = none :=
    bind_eq_none_iff_or fun _ => bind_eq_none_iff_or fun _ => bind_eq_none_iff_or fun _ =>
      bind_pure_eq_none_iff
  simp only [fields, PointClass.ofCode_eq_none, Contact.parse_eq_none, flagOf_eq_none, num8, byteAt_drop]

theorem GroupEntry.parse_eq_none : GroupEntry.parse b = none ↔ 2 ≤ num8 b 20 :=
  bind_pure_eq_none_iff.trans (flagOf_eq_none _)

theorem PatternEntry.parse_eq_none :
    PatternEntry.parse b = none ↔ ∃ k, k < 6 ∧ requiredOf (num8 b k) = none := by
  have fields : PatternEntry.parse b = none ↔ requiredOf (num8 b 0) = none ∨ requiredOf (num8 b 1) = none ∨
      requiredOf (num8 b 2) = none ∨ requiredOf (num8 b 3) = none ∨ requiredOf (num8 b 4) = none ∨
      requiredOf (num8 b 5) = none :=
    bind_eq_none_iff_or fun _ => bind_eq_none_iff_or fun _ => bind_eq_none_iff_or fun _ =>
      bind_eq_none_iff_or fun _ => bind_eq_none_iff_or fun _ => bind_pure_eq_none_iff
  simp only [fields, Nat.exists_lt_succ_left, Nat.not_lt_zero, false_and, exists_false, or_false]

theorem CommandEntry.parse_eq_none : CommandEntry.parse b = none ↔
    2 ≤ num8 b 0 ∨ 4 ≤ num8 b 5 ∨ 2 ≤ num8 b 8 ∨ ¬ (1 ≤ num8 b 11 ∧ num8 b 11 ≤ 10) ∨ 2 ≤ num8 b 14 := by
  have fields : CommandEntry.parse b = none ↔ flagOf (byteAt b 0) = none ∨
      CommandMode.ofCode (num8 b 5) = none ∨ flagOf (byteAt b 8) = none ∨
      StateValue.ofCode (num8 b 11) = none ∨ flagOf (byteAt b 14) = none :=
    bind_eq_none_iff_or fun _ => bind_eq_none_iff_or fun _ => bind_eq_none_iff_or fun _ =>
      bind_eq_none_iff_or fun _ => bind_pure_eq_none_iff
  simp only [fields, flagOf_eq_none, CommandMode.ofCode_eq_none, StateValue.ofCode_eq_none, num8]

end

theorem PointEntry.bytes_eq (e : PointEntry) : e.bytes =
    u8 e.cls.code ++ u16 e.a.mod ++ u16 e.a.contact ++ flag e.a.invert ++
      u16 e.b.mod ++ u16 e.b.contact ++ flag e.b.invert ++ flag e.report ++
      u16 e.pickFilter ++ u16 e.dropFilter ++ u16 e.transitLimit ++ u16 e.faultFilter ++
      u16 e.alarmLimit ++ u16 e.flashFilter ++ u16 e.halfMin ++ u16 e.halfMax ++ u16 e.target := by
  simp only [PointEntry.bytes, Contact.bytes, List.append_assoc]

/-- Settles O52: each field of an entry is read back from where it is sent, at the nearer limit of its
range, and an entry is refused by its enumerated fields alone. -/
theorem tableEntriesAreReadWithinTheirRanges : Obligations.TableEntriesAreReadWithinTheirRanges := by
  refine ⟨⟨rfl, rfl, rfl, rfl, rfl, rfl, fun _ => rfl, fun _ => rfl, PointEntry.bytes_eq, fun _ => rfl,
    fun _ => rfl, CommandEntry.bytes_eq, fun _ => rfl⟩, ⟨?_, ?_, ?_, ?_, ?_, ?_⟩, ?_, ?_, ?_, ?_, ?_, ?_, ?_, ?_⟩
  · rintro e ⟨low, high⟩
    refine ⟨?_, by simp [ModuleEntry.bytes]⟩
    rw [ModuleEntry.bytes, ModuleEntry.parse_fields _ (by omega), nearest_inside low high, decide_eq_false (by omega)]
  · intro e h
    refine ⟨?_, by simp [PointEntry.bytes]⟩
    rw [PointEntry.parse_bytes (PointEntry.sendable_of_inRange h), PointEntry.limited_eq_self h,
      PointEntry.clamped_eq_false.2 h]
  · exact fun e h => ⟨GroupEntry.parse_bytes h, e.length_bytes⟩
  · intro e h
    refine ⟨?_, by simp [PatternEntry.bytes, Function.comp_def]⟩
    rw [PatternEntry.bytes_eq, PatternEntry.parse_fields _ (by omega), clampAspect_inside _ h]
  · exact fun e h => ⟨CommandEntry.parse_bytes h, by simp [CommandEntry.bytes_eq]⟩
  · intro e h
    refine ⟨?_, by simp [SystemRecord.bytes]⟩
    rw [SystemRecord.parse_bytes (SystemRecord.sendable_of_inRange h), SystemRecord.limited_eq_self h,
      SystemRecord.clamped_eq_false.2 h]
  · intro b code named
    refine ⟨ModuleEntry.parse_eq_none b, PointEntry.parse_eq_none b, GroupEntry.parse_eq_none b, ?_,
      CommandEntry.parse_eq_none b, Option.some_ne_none _⟩
    simp only [PatternEntry.parse_eq_none, requiredOf_eq_none]
    exact Iff.rfl
  · exact fun use n h => ModuleEntry.parse_fields use h
  · exact fun e h => ⟨_, PointEntry.parse_bytes h, PointEntry.clamped_eq_false⟩
  · intro m n invert hm hn
    have read := Contact.parse_fields invert [] hm hn
    rw [List.append_nil, ← List.append_assoc] at read
    exact ⟨_, _, read, rfl, rfl, rfl, decide_eq_true_iff⟩
  · intro count first patterns settle members report hcount hfirst hpatterns hsettle hlength hmembers
    obtain ⟨m₁, m₂, m₃, m₄, m₅, m₆, rfl⟩ := list_of_length_six hlength
    simp only [List.forall_mem_cons] at hmembers
    obtain ⟨h₁, h₂, h₃, h₄, h₅, h₆, -⟩ := hmembers
    refine ⟨_, _, GroupEntry.parse_fields report hcount hfirst hpatterns hsettle h₁ h₂ h₃ h₄ h₅ h₆, rfl, rfl,
      rfl, rfl, nearest_zero _ _, rfl, ?_⟩
    simp only [Bool.or_eq_true, clampFin_snd, clamp_snd, decide_eq_true_eq, List.mem_cons, List.not_mem_nil,
      or_false, or_and_right, exists_or, exists_eq_left]
    omega
  · intro required aspect h
    refine ⟨_, _, PatternEntry.parse_fields required h, rfl, clampAspect_fst aspect, ?_⟩
    rw [clampAspect_snd, decide_eq_true_iff]
  · intro e m n pulse point proving present hm hn hpulse hpoint hproving
    refine ⟨_, _, CommandEntry.parse_fields e present hm hn hpulse hpoint hproving, rfl, rfl, rfl, rfl, rfl,
      ?_, rfl, rfl, rfl, ?_⟩
    · cases present <;> rfl
    · simp only [Bool.or_eq_true, Bool.and_eq_true, clampFin_snd, clamp_snd, decide_eq_true_eq, or_assoc]
  · exact fun e h => ⟨_, SystemRecord.parse_bytes h, SystemRecord.clamped_eq_false⟩

end Sys2Proof.Machine

/-! PROOFS. Every step keeps the canonical form, and every command answers next within its blocks (log entries 2
and 18). Both are said of each command at once (`Keeps`): its frame is composed from the frames of what it
does, its canonical form from the ways of writing a table. -/

namespace Sys2Proof.Machine

/-! ### The canonical form from one state to another -/

/-- `t` is in canonical form if `s` is. -/
def KeepsForm (s t : State) : Prop := s.Canonical → t.Canonical

section Form

variable {s t u : State}

theorem KeepsForm.refl (s : State) : KeepsForm s s := id

theorem KeepsForm.trans (h : KeepsForm s t) (h' : KeepsForm t u) : KeepsForm s u := h' ∘ h

theorem KeepsForm.foldl {α : Type} {f : State → α → State} (h : ∀ s a, KeepsForm s (f s a))
    (l : List α) (s : State) : KeepsForm s (l.foldl f s) := by
  induction l generalizing s with
  | nil => exact .refl s
  | cons a l ih => exact (h s a).trans (ih _)

/-- No table changes. -/
theorem KeepsForm.of_same (active : t.ts.active = s.ts.active) (shadow : t.ts.shadow = s.ts.shadow)
    (modules : t.slc.modules = s.slc.modules) (points : t.pe.points = s.pe.points)
    (groups : t.groups = s.groups) (channels : t.channels = s.channels) (slots : t.slots = s.slots) :
    KeepsForm s t := fun h =>
  { active := active ▸ h.active
    shadow := shadow ▸ h.shadow
    modules := modules ▸ h.modules
    points := points ▸ h.points
    groups := groups ▸ h.groups
    channels := channels ▸ h.channels
    banks := fun m bank hb => h.banks m bank (by rwa [State.channelBank, channels] at hb)
    slots := slots ▸ h.slots }

/-- What touches no block that holds a table keeps the form. -/
theorem Frame.keepsForm {l : List Block} (h : Frame l s t) (hl : l ⊆ [.tb, .age, .cq, .dli, .reset]) :
    KeepsForm s t :=
  have same (b : Block) (hb : b ∉ [Block.tb, .age, .cq, .dli, .reset]) : b.same s t :=
    h.blocks b fun hl' => hb (hl hl')
  .of_same (congrArg TableStore.active (same .ts (by decide)))
    (congrArg TableStore.shadow (same .ts (by decide)))
    (congrArg ScanLine.modules (same .slc (by decide)))
    (congrArg PointEvaluator.points (same .pe (by decide)))
    (same .groups (by decide)) (same .channels (by decide)) (same .slots (by decide))

/-- What touches the SLC but not its module records keeps the form. -/
theorem Frame.keepsForm_of_modules (h : Frame [.slc] s t) (hm : t.slc.modules = s.slc.modules) :
    KeepsForm s t :=
  .of_same (congrArg TableStore.active (h.blocks .ts (by decide)))
    (congrArg TableStore.shadow (h.blocks .ts (by decide))) hm
    (congrArg PointEvaluator.points (h.blocks .pe (by decide))) (h.blocks .groups (by decide))
    (h.blocks .channels (by decide)) (h.blocks .slots (by decide))

end Form

variable (s : State)

/-! ### The ways of writing a record -/

theorem State.setModuleRec_form (m : ModuleNo) (r : ModuleRec) : KeepsForm s (s.setModuleRec m r) :=
  fun h => { h with modules := Table.wf_set _ _ m r h.modules }

theorem State.setPointRec_form (p : PointNo) (r : PointRecord) : KeepsForm s (s.setPointRec p r) :=
  fun h => { h with points := Table.wf_set _ _ p r h.points }

theorem State.setGroupRec_form (g : GroupNo) (r : GroupRecord) : KeepsForm s (s.setGroupRec g r) :=
  fun h => { h with groups := Table.wf_set _ _ g r h.groups }

theorem State.setSlot_form (k : SlotNo) (o : Option Slot) : KeepsForm s (s.setSlot k o) :=
  fun h => { h with slots := Table.wf_set _ _ k o h.slots }

theorem State.issue_form (c : ControlNo) (r : CommandResult) (t : Time) : KeepsForm s (s.issue c r t) :=
  (s.issue_frame c r t).keepsForm (by decide)

theorem State.issueIfOpen_form (sl : Slot) (r : CommandResult) (t : Time) :
    KeepsForm s (s.issueIfOpen sl r t) :=
  (s.issueIfOpen_frame sl r t).keepsForm (by decide)

theorem State.hand_form (t : Time) (c : RecordContent) : KeepsForm s (s.hand t c) :=
  (s.hand_frame t c).keepsForm (by decide)

theorem State.handTrace_form (t : Time) (p : PointNo) (l : TraceLevels) :
    KeepsForm s (s.handTrace t p l) :=
  (s.handTrace_frame t p l).keepsForm (by decide)

theorem State.handPoint_form (p : PointNo) (old new : PointRecord) (t : Time) (x : PointExtra) :
    KeepsForm s (s.handPoint p old new t x) :=
  (s.handPoint_frame p old new t x).keepsForm (by decide)

theorem State.moduleRecord_form (m : ModuleNo) (old new : ModuleState) (t : Time) :
    KeepsForm s (s.moduleRecord m old new t) :=
  (s.moduleRecord_frame m old new t).keepsForm (by decide)

theorem State.setHandOvers_form (l : List HandOver) : KeepsForm s (s.setHandOvers l) :=
  (s.setHandOvers_frame l).keepsForm (by decide)

theorem State.transmitNext_form : KeepsForm s s.transmitNext :=
  s.transmitNext_frame.keepsForm (by decide)

theorem State.freeSlot_form (k : SlotNo) : KeepsForm s (s.freeSlot k) := s.setSlot_form k none

/-- The channel records of a module replaced by a table in canonical form. -/
theorem State.setBank_form (m : ModuleNo) {bank : Table 32 Channel}
    (hb : s.Canonical → Table.wf .init bank) :
    KeepsForm s { s with channels := s.channels.set none m (some bank) } := fun h =>
  { h with
    channels := Table.wf_set none s.channels m (some bank) h.channels
    banks := fun k b hk => by
      simp only [State.channelBank, Table.get_set] at hk
      split at hk
      · cases hk; exact hb h
      · exact h.banks k b hk }

theorem State.setChannel_form (m : ModuleNo) (ch : ChannelNo) (c : Channel) :
    KeepsForm s (s.setChannel m ch c) := by
  unfold State.setChannel
  cases hb : s.channelBank m with
  | none => exact .refl s
  | some bank => exact s.setBank_form m fun h => Table.wf_set _ _ ch c (h.banks m bank hb)

/-! ### ODU and CSU (Chapters 6 and 7) -/

theorem State.setCode_form (m : ModuleNo) (ch : ChannelNo) (code : DriveCode) :
    KeepsForm s (s.setCode m ch code) := by
  rcases s.setCode_cases m ch code with e | ⟨_, _, -, -, -, e⟩
  · rw [e]; exact .refl s
  · rw [e]; exact s.setChannel_form _ _ _

/-- Drop flashing makes every bank of channel records anew (R92). -/
theorem State.dropFlashing_form : KeepsForm s s.dropFlashing := fun h =>
  { h with
    channels := Table.wf_update _ _ _
    banks := fun m bank hb => by
      simp only [State.channelBank, State.dropFlashing] at hb
      rw [Table.get_update none (fun _ o => o.map _) (fun _ => rfl), Option.map_eq_some_iff] at hb
      obtain ⟨_, _, rfl⟩ := hb
      exact Table.wf_update _ _ _ }

theorem State.oduModuleLost_form (m : ModuleNo) : KeepsForm s (s.oduModuleLost m) := by
  unfold State.oduModuleLost
  cases s.channelBank m with
  | none => exact .refl s
  | some bank => exact s.setBank_form m fun _ => Table.wf_update _ _ _

theorem State.recordSentCodes_form (m : ModuleNo) : KeepsForm s (s.recordSentCodes m) := by
  unfold State.recordSentCodes
  cases s.channelBank m with
  | none => exact .refl s
  | some bank => exact s.setBank_form m fun _ => Table.wf_tabulate _ _

theorem State.takeControl_form (c : ControlNo) : KeepsForm s (s.takeControl c) := by
  unfold State.takeControl
  cases s.judgeControl c with
  | error r => exact (s.issue_form _ _ _)
  | ok k => exact (s.setSlot_form _ _).trans (State.setCode_form _ _ _ _)

theorem State.endPulse_form (k : SlotNo) (sl : Slot) (due : Time) :
    KeepsForm s (s.endPulse k sl due) := by
  refine (s.setCode_form sl.mod sl.channel .off).trans ?_
  unfold State.endPulse
  cases sl.phase with
  | driving => exact (State.issue_form _ _ _ _).trans (State.freeSlot_form _ _)
  | finishing => exact State.freeSlot_form _ _
  | proving => exact State.setSlot_form _ _ _
  | confirming => exact State.setSlot_form _ _ _

theorem State.proveSlot_form (k : SlotNo) (sl : Slot) (e : Time) :
    KeepsForm s (s.proveSlot k sl e) := by
  refine (s.issue_form sl.control .proved e).trans ?_
  unfold State.proveSlot
  cases sl.pulseEnd with
  | none => exact State.freeSlot_form _ _
  | some d =>
    dsimp only
    split
    · exact (State.setCode_form _ _ _ _).trans (State.freeSlot_form _ _)
    · exact State.setSlot_form _ _ _

theorem State.csuNotice_form (p : PointNo) (new : PointState) : KeepsForm s (s.csuNotice p new) := by
  refine .foldl (fun s k => ?_) allSlots s
  unfold State.noticeSlot
  cases s.slot k with
  | none => exact .refl s
  | some sl =>
    cases hp : sl.proving with
    | none => simp only [hp]; exact .refl s
    | some qe =>
      simp only [hp]
      split
      · exact s.proveSlot_form _ _ _
      · exact .refl s

theorem State.endProving_form (k : SlotNo) (sl : Slot) (due : Time) :
    KeepsForm s (s.endProving k sl due) := by
  unfold State.endProving
  dsimp only
  refine KeepsForm.trans ?_ (State.freeSlot_form _ _)
  split
  · exact (s.issue_form _ _ _).trans (State.setCode_form _ _ _ _)
  · exact (s.issue_form _ _ _)

theorem State.csuReadback_form (m : ModuleNo) (l : BitVec 32) (t : Time) :
    KeepsForm s (s.csuReadback m l t) := by
  refine .foldl (fun s k => ?_) allSlots s
  unfold State.confirmSlot
  cases s.slot k with
  | none => exact .refl s
  | some sl =>
    dsimp only
    split
    · cases s.channel m sl.channel with
      | none => exact .refl s
      | some c =>
        dsimp only
        split
        · exact (State.issue_form _ _ _ _).trans (State.freeSlot_form _ _)
        · exact .refl s
    · exact .refl s

/-- A slot that ends with a result, issued where it is open (R112 to R115). -/
theorem State.endSlot_form (sl : Slot) (r : CommandResult) (t : Time) (k : SlotNo) :
    KeepsForm s ((s.issueIfOpen sl r t).freeSlot k) :=
  (s.issueIfOpen_form sl r t).trans (State.freeSlot_form _ k)

theorem State.csuChannelFault_form (m : ModuleNo) (ch : ChannelNo) (t : Time) :
    KeepsForm s (s.csuChannelFault m ch t) := by
  unfold State.csuChannelFault
  cases s.ownerOf m ch with
  | none => exact .refl s
  | some k =>
    dsimp only
    cases s.slot k with
    | none => exact .refl s
    | some sl => exact s.endSlot_form _ _ _ _

theorem State.csuModuleLost_form (m : ModuleNo) (t : Time) : KeepsForm s (s.csuModuleLost m t) := by
  refine .foldl (fun s k => ?_) allSlots s
  unfold State.loseSlot
  cases s.slot k with
  | none => exact .refl s
  | some sl =>
    dsimp only
    split
    · exact s.endSlot_form _ _ _ _
    · exact .refl s

theorem State.cancelSlot_form (k : SlotNo) (sl : Slot) (e : Time) :
    KeepsForm s (s.cancelSlot k sl e) := by
  have issued := (s.issueIfOpen_form sl .cancelled e)
  unfold State.cancelSlot
  dsimp only
  refine KeepsForm.trans ?_ (State.freeSlot_form _ k)
  cases sl.mode with
  | pulse => exact issued.trans (State.setCode_form _ _ _ _)
  | flash => exact issued.trans (State.setCode_form _ _ _ _)
  | set => exact issued
  | clear => exact issued

theorem State.csuSilence_form (e : Time) : KeepsForm s (s.csuSilence e) := by
  refine (KeepsForm.foldl (fun s k => ?_) allSlots s).trans (State.dropFlashing_form _)
  unfold State.silenceSlot
  cases s.slot k with
  | none => exact .refl s
  | some sl =>
    dsimp only
    refine KeepsForm.trans ?_ (State.freeSlot_form _ k)
    split
    · exact (s.issueIfOpen_form _ _ _).trans (State.setCode_form _ _ _ _)
    · exact (s.issueIfOpen_form _ _ _)

theorem State.oduReadback_form (m : ModuleNo) (l : BitVec 32) (t : Time) :
    KeepsForm s (s.oduReadback m l t) := by
  unfold State.oduReadback
  refine KeepsForm.trans ?_ (State.csuReadback_form _ m l t)
  split
  · refine .foldl (fun s ch => ?_) _ s
    unfold State.superviseChannel
    cases s.channel m ch with
    | none => exact .refl s
    | some c =>
      dsimp only
      cases c.supervise (l.getLsbD ch) t s.system.settleTime with
      | unchanged c' => exact s.setChannel_form _ _ _
      | fault c' =>
        exact ((s.setChannel_form _ _ _).trans (State.hand_form _ _ _)).trans
          (State.csuChannelFault_form _ m ch t)
      | clear c' => exact (s.setChannel_form _ _ _).trans (State.hand_form _ _ _)
  · exact .refl s

/-! ### AGE and PE (Chapters 1 and 4) -/

theorem State.evaluateGroup_form (arrival : Bool) (t : Time) (g : GroupNo) :
    KeepsForm s (State.evaluateGroup arrival t s g) := by
  unfold State.evaluateGroup
  dsimp only
  split
  · exact (s.setGroupRec_form _ _).trans (State.hand_form _ _ _)
  · exact s.setGroupRec_form _ _

theorem State.clearNoMatches_form (l : List GroupNo) : KeepsForm s (l.foldl State.clearNoMatch s) :=
  .foldl (fun s g => s.setGroupRec_form g _) l s

theorem State.ageFinish_form : KeepsForm s s.ageFinish := by
  refine (KeepsForm.foldl (fun s h => ?_) _ s).trans (State.setHandOvers_form _ _)
  exact (KeepsForm.foldl (fun s g => s.evaluateGroup_form h.arrival h.time g) _ s).trans
    (State.clearNoMatches_form _ _)

theorem State.ageTurns_form (n : Nat) : KeepsForm s (s.ageTurns n) := by
  induction n generalizing s with
  | zero => exact .refl s
  | succ n ih =>
    refine KeepsForm.trans ?_ (ih s.ageTurn)
    unfold State.ageTurn
    cases s.age.handOvers with
    | nil => exact .refl s
    | cons h rest =>
      cases hg : h.groups with
      | nil =>
        simp only [hg]
        exact (s.clearNoMatches_form _).trans (State.setHandOvers_form _ _)
      | cons g groups =>
        simp only [hg]
        exact (s.evaluateGroup_form _ _ _).trans (State.setHandOvers_form _ _)

theorem State.handOver_form (h : HandOver) : KeepsForm s (s.handOver h) := by
  unfold State.handOver
  dsimp only
  cases (s.setHandOvers (s.age.handOvers ++ [h])).age.pace with
  | nil => exact (s.setHandOvers_form _).trans (State.ageFinish_form _)
  | cons n pace =>
    refine KeepsForm.trans ?_ (State.ageTurns_form _ _)
    exact .of_same rfl rfl rfl rfl rfl rfl rfl

theorem State.storePoint_form (p : PointNo) (old new : PointRecord) (t : Time) (x : PointExtra) :
    KeepsForm s ((s.setPointRec p new).handPoint p old new t x) :=
  (s.setPointRec_form p new).trans (State.handPoint_form _ _ _ _ _ _)

theorem State.handOn_form (p : PointNo) (new : PointRecord) (t : Time) (x : PointExtra) :
    KeepsForm s (s.handOn p new t x) := by
  unfold State.handOn
  dsimp only
  split
  · exact (s.storePoint_form _ _ _ _ _).trans (State.csuNotice_form _ _ _)
  · exact s.storePoint_form _ _ _ _ _

theorem State.losePoint_form (p : PointNo) (t : Time) : KeepsForm s (s.losePoint p t) := by
  unfold State.losePoint
  dsimp only
  split
  · exact s.setPointRec_form _ _
  · exact s.handOn_form _ _ _ _

theorem State.traceSample_form (p : PointNo) (l : TraceLevels) (t : Time) :
    KeepsForm s (s.traceSample p l t) := by
  unfold State.traceSample
  split
  · exact (s.handTrace_form t p l).trans (.of_same rfl rfl rfl rfl rfl rfl rfl)
  · exact .refl s

theorem State.takeArrival_form (arr : BankImage) (rest : List BankImage) :
    KeepsForm s (s.takeArrival arr rest) := by
  have evaluated : KeepsForm s ((s.pointsOn arr.mod).foldl (fun s p => s.arriveAt arr p) s) := by
    refine .foldl (fun s p => ?_) _ s
    unfold State.arriveAt
    dsimp only
    split
    · cases s.evaluate arr (s.ts.active.pointEntry p) (s.pointRec p) with
      | none => exact .refl s
      | some v => exact (s.handOn_form _ _ _ _).trans (State.traceSample_form _ _ _ _)
    · exact s.losePoint_form p _
  refine KeepsForm.trans ?_ (State.handOver_form _ _)
  exact evaluated.trans (.of_same rfl rfl rfl rfl rfl rfl rfl)

theorem noticePoints_form (t : Time) (l : List PointNo) (acc : State × List PointNo) :
    KeepsForm acc.1 (l.foldl (noticePoint t) acc).1 := by
  induction l generalizing acc with
  | nil => exact .refl _
  | cons p l ih =>
    refine KeepsForm.trans ?_ (ih _)
    unfold noticePoint
    dsimp only
    split
    · exact .refl _
    · exact acc.1.losePoint_form p t

theorem State.moduleNotice_form (m : ModuleNo) (t : Time) : KeepsForm s (s.moduleNotice m t) :=
  (noticePoints_form t (s.pointsOn m) (s, [])).trans (State.handOver_form _ _)

theorem State.imposeSubstitute_form (p : PointNo) (v : StateValue) :
    KeepsForm s (s.imposeSubstitute p v) := by
  unfold State.imposeSubstitute
  dsimp only
  split
  · exact (s.storePoint_form _ _ _ _ _).trans (State.handOver_form _ _)
  · exact s.storePoint_form _ _ _ _ _

theorem State.removeSubstitute_form (p : PointNo) : KeepsForm s (s.removeSubstitute p) := by
  unfold State.removeSubstitute
  dsimp only
  split
  · exact (s.storePoint_form _ _ _ _ _).trans (State.handOver_form _ _)
  · exact s.storePoint_form _ _ _ _ _

/-! ### The cycle and the end of a scan (R69 to R72, R78 to R84) -/

theorem State.startCycle_form (late : Bool) : KeepsForm s (s.startCycle late) :=
  (s.startCycle_frame late).keepsForm_of_modules (s.startCycle_modules late)

theorem State.endScan_form (m : ModuleNo) : KeepsForm s (s.endScan m) :=
  (s.endScan_frame m).keepsForm_of_modules (s.endScan_modules m)

theorem State.endHold_form : KeepsForm s s.endHold :=
  s.endHold_frame.keepsForm_of_modules s.endHold_modules

theorem State.stateNotices_form (m : ModuleNo) (new : ModuleState) (t : Time) :
    KeepsForm s (s.stateNotices m new t) := by
  unfold State.stateNotices
  cases s.useOf m with
  | input => exact s.moduleNotice_form m t
  | output =>
    dsimp only
    split
    · exact (s.oduModuleLost_form m).trans (State.csuModuleLost_form _ m t)
    · exact .refl s
  | unused => exact .refl s

/-- A module's new record, its MODULE record and what else a change hands on (R84). -/
theorem State.storeModule_form (m : ModuleNo) (r : ModuleRec) (old new : ModuleState) (t : Time)
    {c : Prop} [Decidable c] {notice : State → State} (hn : ∀ u, KeepsForm u (notice u)) :
    let stored := (s.setModuleRec m r).moduleRecord m old new t
    KeepsForm s (if c then notice stored else stored) := by
  intro stored
  have kept : KeepsForm s stored :=
    (s.setModuleRec_form m r).trans (State.moduleRecord_form _ _ _ _ _)
  split
  · exact kept.trans (hn stored)
  · exact kept

theorem State.missScan_form (m : ModuleNo) (t : Time) : KeepsForm s (s.missScan m t) :=
  (s.storeModule_form m _ _ _ t fun u => u.stateNotices_form m _ t).trans (State.endScan_form _ m)

theorem State.placeImage_form (i : BankImage) : KeepsForm s (s.placeImage i) := by
  rcases s.placeImage_cases i with ⟨-, e⟩ | e
  · rw [e]; exact .of_same rfl rfl rfl rfl rfl rfl rfl
  · rw [e]; exact .refl s

theorem State.acceptInput_form (m : ModuleNo) (l : BitVec 64) (w : Bool) (t : Time) :
    KeepsForm s (s.acceptInput m l w t) := by
  unfold State.acceptInput
  dsimp only
  refine KeepsForm.trans ?_ (State.endScan_form _ m)
  split
  · exact KeepsForm.trans (s.storeModule_form m _ _ _ t fun u => u.moduleNotice_form m t)
      (State.placeImage_form _ _)
  · exact s.storeModule_form m _ _ _ t fun u => u.moduleNotice_form m t

theorem State.acceptDrive_form (m : ModuleNo) (l : BitVec 32) (t : Time) :
    KeepsForm s (s.acceptDrive m l t) := by
  unfold State.acceptDrive
  dsimp only
  refine KeepsForm.trans (KeepsForm.trans ?_ (State.oduReadback_form _ m l t)) (State.endScan_form _ m)
  exact s.storeModule_form m _ _ _ t fun u => u.stateNotices_form m _ t

theorem State.judgeReply_form (m : ModuleNo) (use : Use) (d : List Byte) :
    KeepsForm s (s.judgeReply m use d) := by
  unfold State.judgeReply
  dsimp only
  split
  · exact s.missScan_form m _
  · cases use with
    | input => exact s.acceptInput_form m _ _ _
    | output => exact s.acceptDrive_form m _ _
    | unused => exact .refl s

/-- A counter of the polled module raised, and the attempt failed (R76, R77). -/
theorem State.countFailure_form (clock : Micros) (m : ModuleNo) (r : ModuleRec) (c : Cycle) (sc : Scan)
    (t : Time) : KeepsForm s (((s.setLineClock clock).setModuleRec m r).failAttempt c sc t) := by
  refine KeepsForm.trans (t := s.setLineClock clock) (.of_same rfl rfl rfl rfl rfl rfl rfl) ?_
  refine (State.setModuleRec_form _ m r).trans ?_
  rcases State.failAttempt_cases _ c sc t with ⟨-, e⟩ | ⟨-, e⟩
  · rw [e]; exact .of_same rfl rfl rfl rfl rfl rfl rfl
  · rw [e]; exact State.missScan_form _ _ _

theorem State.takeReply_form {use : Use} {reply : Reply} {t : State}
    (ht : s.takeReply use reply = some t) : KeepsForm s t := by
  unfold State.takeReply at ht
  cases hs : s.scanIn .receiving with
  | none => simp only [hs] at ht; cases ht
  | some x =>
    simp only [hs] at ht
    split at ht
    · cases ht
    · cases hc : (State.ts (s.setLineClock reply.clock)).active.moduleEntry x.2.mod |>.checkReply reply.frame with
      | crcError => simp only [hc] at ht; cases ht; exact s.countFailure_form _ _ _ _ _ _
      | formatError => simp only [hc] at ht; cases ht; exact s.countFailure_form _ _ _ _ _ _
      | wellFormed =>
        simp only [hc] at ht
        split at ht
        · cases ht
          exact KeepsForm.trans (t := s.setLineClock reply.clock)
            (.of_same rfl rfl rfl rfl rfl rfl rfl) (State.judgeReply_form _ _ _ _)
        · cases ht

/-! ### Tables, modes and the swap (Chapter 10) -/

theorem writeEntries_wf {n : Nat} {α : Type} [DecidableEq α] (d : α) (es : List α) (t : Table n α)
    (first : Nat) (h : Table.wf d t) : Table.wf d (writeEntries d t first es) := by
  induction es generalizing t first with
  | nil => exact h
  | cons e es ih =>
    refine ih _ _ ?_
    split
    · exact Table.wf_set d t _ e h
    · exact h

theorem Tables.write_canonical {b b' : Tables} {table : TableId} {first count : Nat}
    {data : List Byte} {c : Bool} (h : b.canonical)
    (hw : b.write table first count data = some (b', c)) : b'.canonical := by
  obtain ⟨hm, hp, hg, hpat, hc⟩ := h
  cases table <;>
    (obtain ⟨⟨es, c⟩, -, e⟩ := Option.map_eq_some_iff.1 hw; cases e)
  case moduleMap => exact ⟨writeEntries_wf _ es _ _ hm, hp, hg, hpat, hc⟩
  case points => exact ⟨hm, writeEntries_wf _ es _ _ hp, hg, hpat, hc⟩
  case groups => exact ⟨hm, hp, writeEntries_wf _ es _ _ hg, hpat, hc⟩
  case patterns => exact ⟨hm, hp, hg, writeEntries_wf _ es _ _ hpat, hc⟩
  case commands => exact ⟨hm, hp, hg, hpat, writeEntries_wf _ es _ _ hc⟩
  case system => exact ⟨hm, hp, hg, hpat, hc⟩

theorem State.takeTableWrite_form (request : Byte) (body : List Byte) :
    KeepsForm s (s.takeTableWrite request body) := fun h =>
  { h with
    shadow := by
      show (s.writeTable body).2.1.canonical
      rcases s.writeTable_cases body with e | ⟨-, _, _, _, _, _, hw⟩
      · rw [e]; exact h.shadow
      · exact Tables.write_canonical h.shadow hw }

/-- The comparison of the banks makes every table of records anew (R86, R18, R66, R100). -/
theorem State.swapRecords_form (old new : Tables) : KeepsForm s (s.swapRecords old new) := fun h =>
  { active := h.active
    shadow := h.shadow
    modules := by
      have anew : (s.swapRecords old new).slc.modules =
          Table.tabulate .init fun m => swapModule old new m (s.moduleRec m) := rfl
      rw [anew]
      exact Table.wf_tabulate _ _
    points := by
      show Table.wf .init (swapTrace old new _).points = true
      rw [swapTrace_points]
      exact Table.wf_update _ _ _
    groups := by
      show Table.wf GroupRecord.init (Table.update GroupRecord.init _ _) = true
      exact Table.wf_update _ _ _
    channels := by
      have anew : (s.swapRecords old new).channels =
          Table.tabulate none fun m => swapChannels old new m (s.channelBank m) := rfl
      rw [anew]
      exact Table.wf_tabulate _ _
    banks := fun m bank hb => by
      have swapped : swapChannels old new m (s.channelBank m) = some bank :=
        (Table.get_tabulate none (fun m => swapChannels old new m (s.channelBank m)) m).symm.trans hb
      unfold swapChannels at swapped
      split at swapped
      · split at swapped
        · exact h.banks m bank swapped
        · cases swapped; exact Table.wf_nil _
      · cases swapped
    slots := h.slots }

/-- SHADOW's content becomes ACTIVE, and every table of records is made anew (R155). -/
theorem State.swap_form : KeepsForm s s.swap := by
  have banks : KeepsForm s s.swapBanks := fun h => { h with active := h.shadow }
  have compared : KeepsForm s (s.swapBanks.swapRecords s.ts.active s.ts.shadow) :=
    banks.trans (State.swapRecords_form _ _ _)
  refine compared.trans ?_
  rw [State.swap_eq]
  obtain ⟨_, _, _, slc⟩ := (s.swapBanks.swapRecords s.ts.active s.ts.shadow).swapRest_slc
    (!s.configured) s.ts.active s.ts.shadow
  have ts := (s.swapBanks.swapRecords s.ts.active s.ts.shadow).swapRest_ts
    (!s.configured) s.ts.active s.ts.shadow
  have frame : Frame [.ts, .slc, .cq, .dli] (s.swapBanks.swapRecords s.ts.active s.ts.shadow)
      ((s.swapBanks.swapRecords s.ts.active s.ts.shadow).swapRest (!s.configured) s.ts.active
        s.ts.shadow) :=
    ((State.swapGrid_frame _ _ _ _).mono (by decide)).trans
      (((State.swapSilence_frame _ _ _ _).mono (by decide)).trans
        (((State.startRefresh_frame _).mono (by decide)).trans
          ((State.swapMode_frame _ _).mono (by decide))))
  refine .of_same ?_ ?_ (by rw [slc]) (congrArg PointEvaluator.points (frame.blocks .pe (by decide)))
    (frame.blocks .groups (by decide)) (frame.blocks .channels (by decide))
    (frame.blocks .slots (by decide))
  · rw [ts]; split <;> rfl
  · rw [ts]; split <;> rfl

theorem State.leaveMaintenance_form : KeepsForm s s.leaveMaintenance := by
  unfold State.leaveMaintenance State.withdrawCommit
  refine KeepsForm.trans (t := { s with ts := { s.ts with mode := .operate } })
    (.of_same rfl rfl rfl rfl rfl rfl rfl) ?_
  split
  · refine KeepsForm.trans ?_ (State.endHold_form _)
    exact .of_same rfl rfl rfl rfl rfl rfl rfl
  · exact .refl _

/-- A request for MAINTENANCE that is granted leaves the part in MAINTENANCE, and all else (R156). -/
theorem State.requestMode_maintenance_eq {t : State} (ht : s.requestMode 2 = some t) :
    t = { s with ts := { s.ts with mode := .maintenance } } := by
  by_cases mode : s.ts.mode = .unconfigured
  · rw [s.requestMode_unconfigured mode] at ht; cases ht
  · by_cases key : s.ts.key = .presented
    · rw [s.requestMode_maintenance_of_presented mode key] at ht
      exact (Option.some.inj ht).symm
    · cases hm : s.ts.mode <;> simp [State.requestMode, hm, key] at ht

theorem State.requestMode_form {named : Nat} {t : State} (ht : s.requestMode named = some t) :
    KeepsForm s t := by
  by_cases one : named = 1
  · subst one
    cases mode : s.ts.mode with
    | unconfigured => rw [s.requestMode_unconfigured mode] at ht; cases ht
    | operate => rw [s.requestMode_operate_of_operate mode] at ht; cases ht; exact .refl s
    | maintenance =>
      rw [s.requestMode_operate_of_maintenance mode] at ht; cases ht
      exact s.leaveMaintenance_form
  · by_cases two : named = 2
    · subst two
      rw [s.requestMode_maintenance_eq ht]
      exact .of_same rfl rfl rfl rfl rfl rfl rfl
    · rw [s.requestMode_neither one two] at ht; cases ht

/-- COUNTER_CLEAR makes the table of module records anew (R90). -/
theorem State.clearCounters_form : KeepsForm s s.clearCounters :=
  fun h => { h with modules := Table.wf_update _ _ _ }

theorem State.takeReset_form (key : KeyLevel) : KeepsForm s (s.takeReset key) :=
  fun _ => { State.reset_canonical with banks := nofun }

/-! ### What a command keeps -/

/-- `t` differs from `s` at most in the blocks `l`, and is in canonical form if `s` is. -/
structure Keeps (l : List Block) (s t : State) : Prop where
  frame : Frame l s t
  form : KeepsForm s t

section Commands

variable {s} {t u : State} {l l' : List Block}

theorem Keeps.refl (l : List Block) (s : State) : Keeps l s s := ⟨.refl l s, .refl s⟩

theorem Keeps.trans (h : Keeps l s t) (h' : Keeps l t u) : Keeps l s u :=
  ⟨h.frame.trans h'.frame, h.form.trans h'.form⟩

theorem Keeps.mono (h : Keeps l s t) (hl : l ⊆ l') : Keeps l' s t :=
  ⟨h.frame.mono hl, h.form⟩

/-- What touches no block that holds a table. -/
theorem Frame.keeps (h : Frame l s t) (hl : l ⊆ [.tb, .age, .cq, .dli, .reset]) : Keeps l s t :=
  ⟨h, h.keepsForm hl⟩

/-- What touches the DLI alone. -/
theorem Keeps.of_dli {dli : DeskLink} : Keeps [.dli] s { s with dli := dli } :=
  Frame.keeps ⟨fun b hb => by cases b <;> first | rfl | exact absurd (by decide) hb, rfl⟩ (by decide)

/-- What touches the TS alone, and no bank. -/
theorem Keeps.of_ts {mode : Mode} {pending : Bool} {key : KeyLevel} : Keeps [.ts] s { s with
    ts := { s.ts with mode := mode, commitPending := pending, key := key } } :=
  ⟨⟨fun b hb => by cases b <;> first | rfl | exact absurd (by decide) hb, rfl⟩,
    .of_same rfl rfl rfl rfl rfl rfl rfl⟩

theorem State.answer_keeps (hl : [.dli] ⊆ l) (request : Byte) (status : AnswerStatus)
    (payload : List Byte) (h : Keeps l s t) : Keeps l s (t.answer request status payload) :=
  h.trans (((t.answer_frame request status payload).keeps (by decide)).mono hl)

/-- An event keeps what its own effect keeps, besides what the transmitter's work touches (R142). -/
theorem Keeps.occur (hl : [.cq, .dli] ⊆ l) {event : State → Option State}
    (ht : s.occur event = .next t) (he : ∀ u, event s = some u → Keeps l s u) : Keeps l s t := by
  rcases s.occur_cases ht with rfl | ⟨u, -, hu, rfl⟩
  · exact .refl l _
  · exact (he u hu).trans ((u.transmitNext_frame.keeps (by decide)).mono hl)

/-- An event that takes place under a condition. -/
theorem Keeps.occur_if (hl : [.cq, .dli] ⊆ l) {c : Prop} [Decidable c] {v : State}
    (ht : (s.occur fun _ => if c then some v else none) = .next t) (hv : Keeps l s v) :
    Keeps l s t := by
  refine .occur hl ht fun u hu => ?_
  split at hu
  · cases hu; exact hv
  · cases hu

/-- An event that takes place where a search finds something. -/
theorem Keeps.occur_map (hl : [.cq, .dli] ⊆ l) {α : Type} {found : Option α} {f : α → State}
    (ht : (s.occur fun _ => found.map f) = .next t) (hf : ∀ a, Keeps l s (f a)) : Keeps l s t := by
  refine .occur hl ht fun u hu => ?_
  obtain ⟨a, -, rfl⟩ := Option.map_eq_some_iff.1 hu
  exact hf a

/-- The dispatch of a telegram keeps what its owner keeps. -/
theorem Keeps.dispatch (hl : [.cq, .dli] ⊆ l) {k : DeskKind} {takes : List Byte → Bool}
    {owner : RxTelegram → State → State} (ht : s.occur (State.dispatch k takes owner) = .next t)
    (ho : ∀ x, takes x.body = true → k.lengthAllowed x.body = true → ∀ s, Keeps l s (owner x s)) :
    Keeps l s t := by
  have dli : [.dli] ⊆ l := fun b hb => hl (List.mem_cons_of_mem _ hb)
  have freed : Keeps l s s.freeBuffer := (s.freeBuffer_frame.keeps (by decide)).mono dli
  refine .occur hl ht fun u hu => ?_
  obtain ⟨x, -, -, row, ⟨-, rfl⟩ | ⟨-, -, rfl⟩ | ⟨length, -, rfl⟩⟩ := s.dispatch_cases hu
  · exact State.answer_keeps dli _ _ _ freed
  · exact State.answer_keeps dli _ _ _ freed
  · exact freed.trans (ho x row length _)

variable (s)

/-- What an event of the command path may touch. -/
abbrev commandEventBlocks : List Block := [.channels, .slots, .cq, .dli]

theorem State.takeCancel_keeps (request : Byte) (c : ControlNo) :
    Keeps (touchedBy .cancel) s (s.takeCancel request c) := by
  unfold State.takeCancel
  cases s.slotOfControl c with
  | none => exact State.answer_keeps (by decide) _ _ _ (.refl _ s)
  | some k =>
    dsimp only
    cases s.slot k with
    | none => exact State.answer_keeps (by decide) _ _ _ (.refl _ s)
    | some sl =>
      exact State.answer_keeps (by decide) _ _ _
        (Keeps.mono ⟨s.cancelSlot_frame k sl s.now, s.cancelSlot_form k sl s.now⟩ (by decide))

theorem State.takeModeRequest_keeps {named : Nat} {l : List Block} (hl : [.dli] ⊆ l)
    (hr : ∀ t, s.requestMode named = some t → Keeps l s t) (request : Byte) :
    Keeps l s (s.takeModeRequest request named) := by
  unfold State.takeModeRequest
  cases ht : s.requestMode named with
  | none => exact State.answer_keeps hl _ _ _ (.refl l s)
  | some t => exact State.answer_keeps hl _ _ _ (hr t ht)

theorem State.requestMode_operate_keeps {t : State} (ht : s.requestMode 1 = some t) :
    Keeps (touchedBy .modeRequestOperate) s t := by
  refine ⟨?_, s.requestMode_form ht⟩
  cases mode : s.ts.mode with
  | unconfigured => rw [s.requestMode_unconfigured mode] at ht; cases ht
  | operate =>
    rw [s.requestMode_operate_of_operate mode] at ht
    cases ht
    exact .refl _ s
  | maintenance =>
    rw [s.requestMode_operate_of_maintenance mode] at ht
    cases ht
    exact s.leaveMaintenance_frame.mono (by decide)

theorem State.requestMode_maintenance_keeps {t : State} (ht : s.requestMode 2 = some t) :
    Keeps (touchedBy .modeRequestMaintenance) s t := by
  rw [s.requestMode_maintenance_eq ht]
  exact Keeps.of_ts.mono (by decide)

theorem State.requestMode_neither_keeps {body : List Byte} (hb : namesNeither body = true)
    (hl : body.length = 1) {t : State} (ht : s.requestMode (num8 body 0) = some t) :
    Keeps [.cq, .dli] s t := by
  simp only [namesNeither, hl, Bool.or_eq_true, Bool.and_eq_true, decide_eq_true_eq] at hb
  obtain ⟨notOne, notTwo⟩ := hb.resolve_left (by decide)
  rw [s.requestMode_neither notOne notTwo] at ht
  cases ht

theorem State.takeTableWrite_keeps (request : Byte) (body : List Byte) :
    Keeps (touchedBy .tableWrite) s (s.takeTableWrite request body) :=
  ⟨⟨fun b hb => by cases b <;> first | rfl | exact absurd (by decide) hb, rfl⟩,
    s.takeTableWrite_form request body⟩

theorem State.takeTableRead_keeps (request : Byte) (body : List Byte) :
    Keeps (touchedBy .tableRead) s (s.takeTableRead request body) := by
  unfold State.takeTableRead
  cases s.readTable body <;> exact State.answer_keeps (by decide) _ _ _ (.refl _ s)

theorem State.takeCommit_keeps (request : Byte) :
    Keeps (touchedBy .tableCommit) s (s.takeCommit request) := by
  unfold State.takeCommit
  split
  · exact State.answer_keeps (by decide) _ _ _ (.refl _ s)
  · split
    · exact State.answer_keeps (by decide) _ _ _ (.refl _ s)
    · cases s.ts.shadow.firstInvalid with
      | some ti => exact State.answer_keeps (by decide) _ _ _ (.refl _ s)
      | none =>
        dsimp only
        split
        · exact ⟨s.swap_frame, s.swap_form⟩
        · exact Keeps.of_ts.mono (by decide)

theorem State.takeSubstitute_keeps (request : Byte) (number code : Nat) :
    Keeps (touchedBy .substitute) s (s.takeSubstitute request number code) := by
  unfold State.takeSubstitute
  cases s.checkSubstitute number code with
  | none => exact State.answer_keeps (by decide) _ _ _ (.refl _ s)
  | some pv =>
    exact State.answer_keeps (by decide) _ _ _
      (Keeps.mono ⟨s.imposeSubstitute_frame _ _, s.imposeSubstitute_form _ _⟩ (by decide))

theorem State.takeRelease_keeps (request : Byte) (number : Nat) :
    Keeps (touchedBy .release) s (s.takeRelease request number) := by
  unfold State.takeRelease
  cases pointOf number with
  | none => exact State.answer_keeps (by decide) _ _ _ (.refl _ s)
  | some p =>
    dsimp only
    cases (s.pointRec p).substitute with
    | none => exact State.answer_keeps (by decide) _ _ _ (.refl _ s)
    | some v =>
      exact State.answer_keeps (by decide) _ _ _
        (Keeps.mono ⟨s.removeSubstitute_frame _, s.removeSubstitute_form _⟩ (by decide))

/-- A trace selection touches the PE and the queue, and no point record (R162). -/
theorem State.selectTrace_keeps (p : Option PointNo) :
    Keeps (touchedBy .traceSelectPoint) s (s.selectTrace p) :=
  ⟨⟨fun b hb => by cases b <;> first | rfl | exact absurd (by decide) hb, rfl⟩,
    .of_same rfl rfl rfl rfl rfl rfl rfl⟩

theorem State.takeTraceSelect_keeps (request : Byte) (number : Nat) :
    Keeps (touchedBy .traceSelectPoint) s (s.takeTraceSelect request number) := by
  unfold State.takeTraceSelect
  cases pointOf number with
  | none => exact State.answer_keeps (by decide) _ _ _ (.refl _ s)
  | some p =>
    dsimp only
    split
    · exact State.answer_keeps (by decide) _ _ _ (s.selectTrace_keeps _)
    · exact State.answer_keeps (by decide) _ _ _ (.refl _ s)

theorem State.takeDiagRead_keeps (x : RxTelegram) (selector count : Nat)
    (contents : State → Fin count → List Byte) :
    Keeps [.cq, .dli] s (s.takeDiagRead x selector count contents) := by
  unfold State.takeDiagRead
  dsimp only
  split
  · exact State.answer_keeps (by decide) _ _ _ (.refl _ s)
  · split <;> exact State.answer_keeps (by decide) _ _ _ (.refl _ s)

theorem State.setCycle_keeps (c : Option Cycle) : Keeps [.slc] s (s.setCycle c) :=
  ⟨s.setCycle_frame c, (s.setCycle_frame c).keepsForm_of_modules rfl⟩

/-- What an event of the line, or an image arrival, may touch. -/
abbrev scanEventBlocks : List Block := [.slc, .pe, .groups, .age, .channels, .slots, .cq, .dli]

theorem State.countFailure_keeps (clock : Micros) (m : ModuleNo) (r : ModuleRec) (c : Cycle) (sc : Scan)
    (t : Time) : Keeps scanBlocks s (((s.setLineClock clock).setModuleRec m r).failAttempt c sc t) :=
  ⟨s.countFailure_frame _ _ _ _ _ _, s.countFailure_form _ _ _ _ _ _⟩

variable {s}

theorem execReceiveTelegram_keeps {bytes : List Byte} (ht : execReceiveTelegram bytes s = .next t) :
    Keeps [.cq, .dli] s t := by
  refine .occur_if (by decide) ht ?_
  split <;> exact Keeps.of_dli.mono (by decide)

theorem execUnknownKind_keeps (ht : execUnknownKind s = .next t) : Keeps (touchedBy .unknownKind) s t := by
  refine .occur (by decide) ht fun u hu => ?_
  cases hx : s.dispatchable with
  | none => simp only [hx] at hu; cases hu
  | some x =>
    simp only [hx] at hu
    split at hu
    · cases hu; exact Keeps.of_dli.mono (by decide)
    · cases hu

theorem execIdleIntervalExpiry_keeps (ht : execIdleIntervalExpiry s = .next t) :
    Keeps (touchedBy .idleIntervalExpiry) s t := by
  refine .occur (by decide) ht fun u hu => ?_
  unfold State.idleWork at hu
  split at hu
  · split at hu
    · cases hu; exact .refl _ s
    · split at hu
      · cases hu
      · split at hu
        · cases hu; exact .refl _ s
        · cases hu; exact Keeps.of_dli.mono (by decide)
  · cases hu

theorem execDeskSilenceExpiry_keeps (ht : execDeskSilenceExpiry s = .next t) :
    Keeps (touchedBy .deskSilenceExpiry) s t := by
  refine .occur_if (by decide) ht (Keeps.trans (Keeps.mono (l := [.dli]) ?_ (by decide))
    (Keeps.mono ⟨State.csuSilence_frame _ _, State.csuSilence_form _ _⟩ (by decide)))
  exact .of_dli

theorem execKeyWithdrawal_keeps {stood : Nat} (ht : execKeyWithdrawal stood s = .next t) :
    Keeps [.ts, .slc, .cq, .dli] s t := by
  have sensed : Keeps [.ts, .slc, .cq, .dli] s (s.setKey .withdrawn) := Keeps.of_ts.mono (by decide)
  refine .occur_if (by decide) ht ?_
  split
  · exact sensed.trans (Keeps.mono
      ⟨State.leaveMaintenance_frame _, State.leaveMaintenance_form (s.setKey .withdrawn)⟩ (by decide))
  · exact sensed

/-- The SLC's fields other than its module records. -/
theorem Keeps.of_line {slc : ScanLine} (h : slc.modules = s.slc.modules) :
    Keeps [.slc] s { s with slc := slc } :=
  have frame : Frame [.slc] s { s with slc := slc } :=
    ⟨fun b hb => by cases b <;> first | rfl | exact absurd (by decide) hb, rfl⟩
  ⟨frame, frame.keepsForm_of_modules h⟩

theorem execCycleStart_keeps (ht : execCycleStart s = .next t) : Keeps (touchedBy .cycleStart) s t := by
  refine .occur (by decide) ht fun u hu => ?_
  split at hu
  · cases hc : s.slc.cycle with
    | none =>
      simp only [hc] at hu
      cases hu
      exact Keeps.mono ⟨s.startCycle_frame false, s.startCycle_form false⟩ (by decide)
    | some c =>
      simp only [hc] at hu
      split at hu <;> cases hu
      exact Keeps.mono (l := [.slc]) (.of_line rfl) (by decide)
  · cases hu

theorem execCommitSwap_keeps (ht : execCommitSwap s = .next t) : Keeps (touchedBy .commitSwap) s t := by
  refine .occur (by decide) ht fun u hu => ?_
  cases hc : s.swapReady with
  | none => simp only [hc] at hu; cases hu
  | some c =>
    simp only [hc] at hu
    cases hu
    exact Keeps.trans ⟨s.swap_frame, s.swap_form⟩
      (Keeps.mono ⟨State.endHold_frame _, State.endHold_form _⟩ (by decide))

theorem execInputPoll_keeps (ht : execInputPoll s = .next t) : Keeps (touchedBy .inputPoll) s t := by
  refine .occur (by decide) ht fun u hu => ?_
  cases hp : s.pollReady .input with
  | none => simp only [hp] at hu; cases hu
  | some x =>
    simp only [hp] at hu
    cases hu
    exact (s.setCycle_keeps _).mono (by decide)

theorem execDrivePoll_keeps (ht : execDrivePoll s = .next t) : Keeps (touchedBy .drivePoll) s t := by
  refine .occur (by decide) ht fun u hu => ?_
  cases hp : s.pollReady .output with
  | none => simp only [hp] at hu; cases hu
  | some x =>
    simp only [hp] at hu
    cases hu
    exact Keeps.trans (Keeps.mono ⟨s.recordSentCodes_frame x.2.1, s.recordSentCodes_form x.2.1⟩ (by decide))
      ((State.setCycle_keeps _ _).mono (by decide))

theorem execReplyFirstByte_keeps {byte : FirstByte} (ht : execReplyFirstByte byte s = .next t) :
    Keeps [.slc, .cq, .dli] s t := by
  refine .occur (by decide) ht fun u hu => ?_
  cases hs : s.scanIn .awaiting with
  | none => simp only [hs] at hu; cases hu
  | some x =>
    simp only [hs] at hu
    split at hu <;> cases hu
    exact Keeps.mono (l := [.slc]) (.of_line rfl) (by decide)

theorem execReplyTimeout_keeps {clock : Micros} (ht : execReplyTimeout clock s = .next t) :
    Keeps scanEventBlocks s t := by
  refine .occur (by decide) ht fun u hu => ?_
  cases hs : s.scanIn .awaiting with
  | none => simp only [hs] at hu; cases hu
  | some x =>
    simp only [hs] at hu
    split at hu <;> cases hu
    exact (s.countFailure_keeps _ _ _ _ _ _).mono (by decide)

theorem execReplySilence_keeps {clock : Micros} (ht : execReplySilence clock s = .next t) :
    Keeps scanEventBlocks s t := by
  refine .occur (by decide) ht fun u hu => ?_
  cases hs : s.scanIn .receiving with
  | none => simp only [hs] at hu; cases hu
  | some x =>
    simp only [hs] at hu
    split at hu <;> cases hu
    exact (s.countFailure_keeps _ _ _ _ _ _).mono (by decide)

theorem State.takeReply_keeps {use : Use} {reply : Reply} (hu : s.takeReply use reply = some u) :
    Keeps scanBlocks s u :=
  ⟨s.takeReply_frame _ _ hu, s.takeReply_form hu⟩

theorem execInputReply_keeps {reply : Reply} (ht : execInputReply reply s = .next t) :
    Keeps scanEventBlocks s t :=
  .occur (by decide) ht fun _ hu => (State.takeReply_keeps hu).mono (by decide)

theorem execDriveReply_keeps {reply : Reply} (ht : execDriveReply reply s = .next t) :
    Keeps scanEventBlocks s t :=
  .occur (by decide) ht fun _ hu => (State.takeReply_keeps hu).mono (by decide)

theorem execImageArrival_keeps (ht : execImageArrival s = .next t) :
    Keeps scanEventBlocks s t := by
  refine .occur (by decide) ht fun u hu => ?_
  cases hb : s.slc.banks with
  | nil => simp only [hb] at hu; cases hu
  | cons arr rest =>
    simp only [hb] at hu
    split at hu <;> cases hu
    exact Keeps.mono ⟨s.takeArrival_frame _ _, s.takeArrival_form _ _⟩ (by decide)

theorem State.setDeskTime_keeps (s : State) (T received : Time) :
    Keeps (touchedBy .timeSet) s (s.setDeskTime T received) :=
  ⟨⟨fun b hb => by cases b <;> first | rfl | exact absurd (by decide) hb, rfl⟩,
    .of_same rfl rfl rfl rfl rfl rfl rfl⟩

theorem State.takeReset_keeps (s : State) (key : KeyLevel) :
    Keeps [.tb, .ts, .slc, .pe, .groups, .age, .channels, .slots, .cq, .dli, .reset] s
      (s.takeReset key) :=
  ⟨⟨fun b hb => by cases b <;> exact absurd (by decide) hb, rfl⟩, s.takeReset_form key⟩

/-- Every command keeps what it does not touch, and the canonical form. -/
theorem exec_keeps (c : Instr) (ht : exec c s = .next t) : Keeps (touchedBy c) s t := by
  cases c with
  | powerOnReset key => cases ht; exact s.takeReset_keeps key
  | receiveTelegram bytes => exact execReceiveTelegram_keeps ht
  | receiveTruncated gap => exact Keeps.occur_if (l := [.cq, .dli]) (by decide) ht (Keeps.of_dli.mono (by decide))
  | unknownKind => exact execUnknownKind_keeps ht
  | control =>
    exact .dispatch (by decide) ht fun _ _ _ s =>
      Keeps.mono ⟨s.takeControl_frame _, s.takeControl_form _⟩ (by decide)
  | cancel => exact .dispatch (by decide) ht fun _ _ _ s => s.takeCancel_keeps _ _
  | interrogate =>
    exact .dispatch (by decide) ht fun _ _ _ s =>
      State.answer_keeps (by decide) _ _ _ ((s.startRefresh_frame.keeps (by decide)).mono (by decide))
  | timeSet =>
    exact .dispatch (by decide) ht fun _ _ _ s =>
      State.answer_keeps (by decide) _ _ _ (s.setDeskTime_keeps _ _)
  | modeRequestOperate =>
    exact .dispatch (by decide) ht fun _ _ _ s =>
      s.takeModeRequest_keeps (by decide) (fun _ => s.requestMode_operate_keeps) _
  | modeRequestMaintenance =>
    exact .dispatch (by decide) ht fun _ _ _ s =>
      s.takeModeRequest_keeps (by decide) (fun _ => s.requestMode_maintenance_keeps) _
  | modeRequestNeither =>
    exact .dispatch (by decide) ht fun _ row length s => s.takeModeRequest_keeps (by decide)
      (fun _ => s.requestMode_neither_keeps row (by simpa [DeskKind.lengthAllowed] using length)) _
  | tableWrite => exact .dispatch (by decide) ht fun _ _ _ s => s.takeTableWrite_keeps _ _
  | tableRead => exact .dispatch (by decide) ht fun _ _ _ s => s.takeTableRead_keeps _ _
  | tableCommit => exact .dispatch (by decide) ht fun _ _ _ s => s.takeCommit_keeps _
  | substitute => exact .dispatch (by decide) ht fun _ _ _ s => s.takeSubstitute_keeps _ _ _
  | release => exact .dispatch (by decide) ht fun _ _ _ s => s.takeRelease_keeps _ _
  | traceSelectPoint => exact .dispatch (by decide) ht fun _ _ _ s => s.takeTraceSelect_keeps _ _
  | traceSelectNone =>
    exact .dispatch (by decide) ht fun _ _ _ s =>
      State.answer_keeps (by decide) _ _ _ (s.selectTrace_keeps _)
  | counterClear =>
    exact .dispatch (by decide) ht fun _ _ _ s =>
      State.answer_keeps (by decide) _ _ _ ⟨s.clearCounters_frame, s.clearCounters_form⟩
  | restart => exact .dispatch (by decide) ht fun _ _ _ _ => (Keeps.of_dli.mono (by decide))
  | restartReset key =>
    exact .occur_if (l := [.tb, .ts, .slc, .pe, .groups, .age, .channels, .slots, .cq, .dli, .reset]) (by decide) ht
      (s.takeReset_keeps key)
  | diagReadPoint => exact .dispatch (by decide) ht fun _ _ _ s => s.takeDiagRead_keeps _ _ _ _
  | diagReadGroup => exact .dispatch (by decide) ht fun _ _ _ s => s.takeDiagRead_keeps _ _ _ _
  | diagReadModule => exact .dispatch (by decide) ht fun _ _ _ s => s.takeDiagRead_keeps _ _ _ _
  | diagReadSlot => exact .dispatch (by decide) ht fun _ _ _ s => s.takeDiagRead_keeps _ _ _ _
  | diagReadPart =>
    refine .dispatch (by decide) ht fun _ _ _ s => ?_
    split <;> exact State.answer_keeps (by decide) _ _ _ (.refl _ s)
  | transmitEnd => exact .occur_if (by decide) ht (Keeps.of_dli.mono (by decide))
  | idleIntervalExpiry => exact execIdleIntervalExpiry_keeps ht
  | deskSilenceExpiry => exact execDeskSilenceExpiry_keeps ht
  | keyWithdrawal stood => exact execKeyWithdrawal_keeps ht
  | keyPresented stood => exact Keeps.occur_if (l := [.ts, .cq, .dli]) (by decide) ht (Keeps.of_ts.mono (by decide))
  | cycleStart => exact execCycleStart_keeps ht
  | commitSwap => exact execCommitSwap_keeps ht
  | inputPoll => exact execInputPoll_keeps ht
  | drivePoll => exact execDrivePoll_keeps ht
  | replyTimeout clock => exact execReplyTimeout_keeps ht
  | replySilence clock => exact execReplySilence_keeps ht
  | inputReply reply => exact execInputReply_keeps ht
  | driveReply reply => exact execDriveReply_keeps ht
  | imageArrival => exact execImageArrival_keeps ht
  | pulseEnd slot =>
    exact Keeps.occur_map (l := commandEventBlocks) (by decide) ht fun _ =>
      Keeps.mono ⟨s.endPulse_frame _ _ _, s.endPulse_form _ _ _⟩ (by decide)
  | provingDeadline slot =>
    exact Keeps.occur_map (l := commandEventBlocks) (by decide) ht fun _ =>
      Keeps.mono ⟨s.endProving_frame _ _ _, s.endProving_form _ _ _⟩ (by decide)
  | receiveOverlong length => exact Keeps.occur_if (l := [.cq, .dli]) (by decide) ht (Keeps.of_dli.mono (by decide))
  | syncByte => exact .occur_if (by decide) ht (Keeps.of_dli.mono (by decide))
  | replyFirstByte byte => exact execReplyFirstByte_keeps ht
  | resetAsserted =>
    cases ht
    exact ⟨⟨fun b hb => by cases b <;> first | rfl | exact absurd (by decide) hb, rfl⟩,
      .of_same rfl rfl rfl rfl rfl rfl rfl⟩

/-- What the part finishes on an empty queue keeps the canonical form (R58, R146). -/
theorem State.unfinished_form (hu : s.unfinished = some t) : KeepsForm s t := by
  unfold State.unfinished at hu
  split at hu
  · cases hu
  · split at hu
    · cases hu
      exact s.ageFinish_form.trans (State.transmitNext_form _)
    · split at hu <;> cases hu
      exact Keeps.of_dli.form.trans (State.transmitNext_form _)

theorem State.tick_form (s : State) : KeepsForm s s.tick := by
  unfold State.tick
  split
  · exact .refl s
  · exact .of_same rfl rfl rfl rfl rfl rfl rfl

/-- Every command but RESET held low and the reset of a power-on is an event. -/
theorem exec_eq_occur (c : Instr) (hr : c ≠ .resetAsserted) (hp : ∀ key, c ≠ .powerOnReset key)
    (s : State) : ∃ event, exec c s = s.occur event := by
  cases c with
  | powerOnReset key => exact absurd rfl (hp key)
  | resetAsserted => exact absurd rfl hr
  | _ =>
    simp only [exec, execReceiveTelegram, execReceiveTruncated, execReceiveOverlong, execSyncByte,
      execUnknownKind, execRestartReset, execTransmitEnd, execIdleIntervalExpiry, execDeskSilenceExpiry,
      execKeyWithdrawal, execKeyPresented, execCycleStart, execCommitSwap, execInputPoll, execDrivePoll,
      execReplyFirstByte, execReplyTimeout, execReplySilence, execInputReply, execDriveReply,
      execImageArrival, execPulseEnd, execProvingDeadline]
    exact ⟨_, rfl⟩

/-- No command faults and none is refused. -/
theorem exec_next (c : Instr) (s : State) : ∃ t, exec c s = .next t := by
  by_cases hr : c = .resetAsserted
  · rw [hr]; exact ⟨_, rfl⟩
  · by_cases hp : ∃ key, c = .powerOnReset key
    · obtain ⟨key, rfl⟩ := hp; exact ⟨_, rfl⟩
    · obtain ⟨event, e⟩ := exec_eq_occur c hr (fun key h => hp ⟨key, h⟩) s
      rw [e]; exact s.occur_next event

end Commands

/-- Settles O53: a step is a command, what is left unfinished, or a millisecond, and each keeps the form. -/
theorem everyStepKeepsTheCanonicalForm : Obligations.EveryStepKeepsTheCanonicalForm := by
  intro s t h ht
  rcases step_cases ht with ⟨c, rest, -, hc⟩ | ⟨-, hu | ⟨-, ⟨c, -, hc⟩ | ⟨-, rfl⟩⟩⟩
  · exact (exec_keeps c hc).form { h with }
  · exact State.unfinished_form hu h
  · exact (exec_keeps c hc).form h
  · exact s.tick_form h

/-- Settles O3: a command is a reset, RESET held low, or an event, and every event answers next. -/
theorem everyCommandAnswersNextWithinItsBlocks : Obligations.EveryCommandAnswersNextWithinItsBlocks := by
  intro c s
  obtain ⟨t, ht⟩ := exec_next c s
  exact ⟨t, ht, (exec_keeps c ht).frame⟩

end Sys2Proof.Machine

/-! PROOFS. The machine and its transmitter, and the reception of desk telegrams. -/

namespace Sys2Proof.Machine

/-! ### The machine -/

/-- Settles O1: the first case of `step`. -/
theorem stepExecutesTheFrontCommand : Obligations.StepExecutesTheFrontCommand := by
  intro s c rest h
  rw [step, h]

section Unfinished

variable {s : State}

theorem State.unfinished_of_handOvers (hr : s.Running) (h : s.age.handOvers ≠ []) :
    s.unfinished = some s.ageFinish.transmitNext := by
  have running : ¬ s.resetHeld = true := by rw [hr]; decide
  rw [State.unfinished, if_neg running, if_pos h]

theorem State.unfinished_of_expiryOpen (hr : s.Running) (h : s.age.handOvers = [])
    (ho : s.dli.expiryOpen = true) :
    s.unfinished = some { s with dli := { s.dli with expiryOpen := false } }.transmitNext := by
  have running : ¬ s.resetHeld = true := by rw [hr]; decide
  rw [State.unfinished, if_neg running, if_neg (not_not_intro h), if_pos ho]

theorem State.unfinished_of_nothing (h : s.age.handOvers = []) (ho : s.dli.expiryOpen = false) :
    s.unfinished = none := by
  simp [State.unfinished, h, ho]

theorem State.unfinished_of_held (h : s.resetHeld = true) : s.unfinished = none := if_pos h

theorem State.selfStarted_of_held (h : s.resetHeld = true) : s.selfStarted = none := if_pos h

theorem State.tick_of_held (h : s.resetHeld = true) : s.tick = s := if_pos h

theorem State.tick_of_running (h : s.Running) : s.tick = { s with
    tb := { s.tb with elapsed := s.tb.elapsed + 1 }
    slc := { s.slc with lineClock := 0 } } :=
  if_neg (by rw [h]; decide)

end Unfinished

/-- Settles O2: the values of `State.unfinished`, of `State.selfStarted` and of `State.tick`. -/
theorem emptyQueueLetsThePartRun : Obligations.EmptyQueueLetsThePartRun := by
  intro s empty
  have unfinished {t : State} (h : s.unfinished = some t) : step s = .next t := by
    simp only [step, empty, h]
  have own (h : s.unfinished = none) {c : Instr} (hc : s.selfStarted = some c) :
      step s = exec c s := by simp only [step, empty, h, hc]
  have idle (h : s.unfinished = none) (hn : s.selfStarted = none) : step s = .next s.tick := by
    simp only [step, empty, h, hn]
  refine ⟨fun hr h => unfinished (State.unfinished_of_handOvers hr h),
    fun hr h ho => unfinished (State.unfinished_of_expiryOpen hr h ho),
    fun h ho => ⟨fun c hc => own (State.unfinished_of_nothing h ho) hc, fun hn hr => ?_⟩,
    fun held => ?_⟩
  · rw [idle (State.unfinished_of_nothing h ho) hn, State.tick_of_running hr]
  · rw [idle (State.unfinished_of_held held) (State.selfStarted_of_held held), State.tick_of_held held]

/-- Settles O4: every other command is an event, and no event takes place while RESET is low. -/
theorem resetHeldLowStopsThePart : Obligations.ResetHeldLowStopsThePart := by
  refine fun s => ⟨rfl, fun held c hr hp => ?_⟩
  obtain ⟨event, e⟩ := exec_eq_occur c hr hp s
  rw [e, State.occur, if_pos held]

/-! ### The transmitter (R142, R144) -/

section Transmitter

variable {s : State}

theorem State.transmitNext_of_sending (h : s.dli.transmitter ≠ none) : s.transmitNext = s := by
  obtain ⟨sent, hs⟩ := Option.ne_none_iff_exists'.1 h
  rw [State.transmitNext, hs]

theorem State.transmitNext_of_answer (h : s.dli.transmitter = none) {a : Answer} {waiting : List Answer}
    (ha : s.dli.answers = a :: waiting) : s.transmitNext = { s with
      dli := { s.dli with answers := waiting, transmitter := some (.answer a) } } := by
  rw [State.transmitNext, h, ha]
  rfl

theorem State.transmitNext_of_noAnswer (h : s.dli.transmitter = none) (ha : s.dli.answers = []) :
    s.transmitNext = if s.mayIndicate && s.cqOffers then s.assemble else s := by
  rw [State.transmitNext, h, ha]

theorem State.cqOffers_iff : s.cqOffers = true ↔ s.cq.queue ≠ [] ∨ s.cq.cursor ≠ none := by
  simp [State.cqOffers, Option.isSome_iff_ne_none]

theorem State.cqOffers_eq_false (hq : s.cq.queue = []) (hc : s.cq.cursor = none) :
    s.cqOffers = false := by
  simp [State.cqOffers, hq, hc]

theorem State.mayIndicate_iff :
    s.mayIndicate = true ↔ s.dli.restarting = false ∧ s.dli.expiryOpen = false := by
  simp [State.mayIndicate]

/-- The telegram in transmission is not the answer whose end is RESTART_RESET (log entry 20). -/
theorem State.sendingRestartAnswer_eq_false {sent : OutTelegram} (h : s.dli.transmitter = some sent)
    (other : ¬ (s.dli.restarting = true ∧ ∃ payload, sent = .answer ⟨0x0E, .accepted, payload⟩)) :
    s.sendingRestartAnswer = false := by
  rw [State.sendingRestartAnswer, h]
  cases sent with
  | indication header records => exact Bool.and_false _
  | answer a =>
    obtain ⟨request, status, payload⟩ := a
    by_contra restart
    simp only [Bool.not_eq_false, Bool.and_eq_true, decide_eq_true_eq] at restart
    obtain ⟨restarting, rfl, rfl⟩ := restart
    exact other ⟨restarting, payload, rfl⟩

end Transmitter

/-- Settles O29: the cases of `State.transmitNext`, and the two events that free it or find it idle. -/
theorem transmitterTakesItsNextWork : Obligations.TransmitterTakesItsNextWork := by
  intro s
  refine ⟨State.transmitNext_of_sending, fun free => ⟨fun a waiting => State.transmitNext_of_answer free,
    fun ha hr ho offers => ?_, fun ha closed => ?_, fun ha hq hc => ?_⟩, fun sent hr h other => ?_,
    fun hr free due ha hrestart ho hq hc => ?_⟩
  · rw [State.transmitNext_of_noAnswer free ha, State.mayIndicate_iff.2 ⟨hr, ho⟩,
      State.cqOffers_iff.2 offers]
    rfl
  · have mute : s.mayIndicate = false := by
      rw [← Bool.not_eq_true, State.mayIndicate_iff]
      rcases closed with h | h <;> simp [h]
    rw [State.transmitNext_of_noAnswer free ha, mute]
    rfl
  · rw [State.transmitNext_of_noAnswer free ha, State.cqOffers_eq_false hq hc, Bool.and_false]
    rfl
  · simp only [exec, execTransmitEnd]
    exact State.occur_eq hr
      (if_pos ⟨by rw [h]; rfl, by rw [State.sendingRestartAnswer_eq_false h other]; rfl⟩)
  · have idle : s.idleDue = true := by simp [State.idleDue, free, due]
    have work : s.idleWork = some s.sendIdle := by
      simp [State.idleWork, ha, State.mayIndicate_iff.2 ⟨hrestart, ho⟩, State.cqOffers_eq_false hq hc]
    have taken : exec .idleIntervalExpiry s = .next s.sendIdle.transmitNext := by
      simp only [exec, execIdleIntervalExpiry]
      exact State.occur_eq hr ((if_pos idle).trans work)
    rw [taken, State.transmitNext_of_sending (s := s.sendIdle) (Option.some_ne_none _)]
    rfl

/-! ### The Change Queue (R124, R126, R127) -/

/-- Settles O51: the two branches of `State.hand` and the two of `State.handTrace`. -/
theorem queueTakesRefusesOrOverflows : Obligations.QueueTakesRefusesOrOverflows := by
  intro s t content p levels
  exact ⟨fun room => if_pos room, fun full => if_neg (Nat.not_lt.2 full),
    fun high => if_pos high, fun low => if_neg (Nat.not_le.2 low)⟩

/-! ### Reception (R135, R136) -/

section Telegram

variable (kind : Byte) (body : List Byte)

theorem telegram_tail : (telegram kind body).tail =
    u16 body.length ++ [kind] ++ body ++ crcBytes (u16 body.length ++ [kind] ++ body) := rfl

theorem crcCorrect_append_crcBytes (inner : List Byte) : crcCorrect (inner ++ crcBytes inner) = true := by
  have length : (crcBytes inner).length = 2 := rfl
  simp [crcCorrect, length]

theorem crcCorrect_telegram : crcCorrect (telegram kind body).tail = true :=
  crcCorrect_append_crcBytes _

variable {body} (h : body.length ≤ 256)
include h

theorem telegramShape_telegram : telegramShape (telegram kind body).tail = true := by
  have announced : wfPair (BitVec.ofNat 8 (body.length / 256)) (BitVec.ofNat 8 body.length) =
      body.length := by
    simp only [wfPair, BitVec.toNat_ofNat]; omega
  have length (inner : List Byte) : (crcBytes inner).length = 2 := rfl
  simp [telegram, u16, telegramShape, announced, length, Config.maxBody, h]

theorem telegramOf_telegram (t : Time) :
    telegramOf (telegram kind body).tail t = ⟨kind, body, t⟩ := by
  have announced : num16 (telegram kind body).tail 0 = body.length := by
    rw [telegram_tail, List.append_assoc, List.append_assoc]
    exact num16_u16 _ (by omega) _
  have dropped : ((telegram kind body).tail).drop 3 =
      body ++ crcBytes (u16 body.length ++ [kind] ++ body) := rfl
  rw [telegramOf, announced, dropped, List.take_left]
  rfl

end Telegram

/-- Settles O6: each row of R135 and R136 is the value of one event. -/
theorem receptionBuffersDiscardsOrHunts : Obligations.ReceptionBuffersDiscardsOrHunts := by
  intro s hr
  refine ⟨fun assembling => ⟨fun kind body h => ?_, fun bytes shape wrong => ?_, fun gap long => ?_,
    fun length long => ?_, ?_⟩, fun hunting => ?_⟩
  · have received : exec (.receiveTelegram (telegram kind body).tail) s =
        .next ((s.setReceiver .hunting).receiveValid ⟨kind, body, s.now⟩).transmitNext := by
      simp only [exec, execReceiveTelegram]
      refine State.occur_eq hr ((if_pos ⟨assembling, telegramShape_telegram kind h⟩).trans ?_)
      rw [if_pos (crcCorrect_telegram kind body), telegramOf_telegram kind h]
      rfl
    rw [received]
    by_cases room : s.dli.buffers.length < 2
    · simp [State.receiveValid, State.setReceiver, room, Config.receiveBuffers]
    · simp [State.receiveValid, State.setReceiver, room, Config.receiveBuffers]
  · simp only [exec, execReceiveTelegram]
    refine State.occur_eq hr ((if_pos ⟨assembling, shape⟩).trans ?_)
    rw [if_neg (by rw [wrong]; decide)]
    rfl
  · simp only [exec, execReceiveTruncated]
    exact State.occur_eq hr (if_pos ⟨assembling, long⟩)
  · simp only [exec, execReceiveOverlong]
    exact State.occur_eq hr (if_pos ⟨assembling, long⟩)
  · have data : ¬ s.dli.receiver = .hunting := by rw [assembling]; decide
    have running : ¬ s.resetHeld = true := by rw [hr]; decide
    simp [exec, execSyncByte, State.occur, running, data]
  · simp only [exec, execSyncByte]
    exact State.occur_eq hr (if_pos hunting)

end Sys2Proof.Machine

/-! PROOFS. Set code and supervision (R92, R95 to R97), and the command path's events at one slot and at every
slot: acceptance, the proving deadline, proof and desk silence (R106, R109, R110, R115). -/

namespace Sys2Proof.Machine

/-! ### Set code (R92) -/

/-- A channel record after a set code request: a FAULTED one and one that carries the code stay. -/
def Channel.coded (c : Channel) (code : DriveCode) : Channel :=
  if c.isFaulted = true ∨ c.drive = code then c
  else { c with drive := code, condition := .normal none }

theorem Channel.coded_of_kept {c : Channel} {code : DriveCode}
    (h : c.isFaulted = true ∨ c.drive = code) : c.coded code = c := if_pos h

theorem Channel.coded_of_differs {c : Channel} {code : DriveCode} (hf : c.isFaulted = false)
    (hd : c.drive ≠ code) : c.coded code = { c with drive := code, condition := .normal none } :=
  if_neg (by simp [hf, hd])

theorem Channel.coded_coded (c : Channel) (code : DriveCode) : (c.coded code).coded code = c.coded code := by
  by_cases h : c.isFaulted = true ∨ c.drive = code
  · rw [Channel.coded_of_kept h, Channel.coded_of_kept h]
  · rw [not_or, Bool.not_eq_true] at h
    rw [Channel.coded_of_differs h.1 h.2]
    exact Channel.coded_of_kept (.inr rfl)

section SetCode

variable {s : State} {m : ModuleNo} {j : ChannelNo} {ch : Channel}

theorem State.setCode_of_absent (h : s.channel m j = none) (code : DriveCode) :
    s.setCode m j code = s := by
  rw [State.setCode, h]

theorem State.setCode_of_kept (h : s.channel m j = some ch) {code : DriveCode}
    (hk : ch.isFaulted = true ∨ ch.drive = code) : s.setCode m j code = s := by
  rcases s.setCode_cases m j code with e | ⟨c, mismatch, hc, normal, differs, -⟩
  · exact e
  · cases h.symm.trans hc
    have sound : ch.isFaulted = false := by simp [Channel.isFaulted, normal]
    simp [sound, differs] at hk

theorem State.setCode_of_differs (h : s.channel m j = some ch) {code : DriveCode}
    (hf : ch.isFaulted = false) (hd : ch.drive ≠ code) :
    s.setCode m j code = s.setChannel m j { ch with drive := code, condition := .normal none } := by
  rw [State.setCode, h]
  cases hc : ch.condition with
  | faulted agreement => simp [Channel.isFaulted, hc] at hf
  | normal mismatch => simp [hc, hd]

/-- What a set code request leaves in every channel record. -/
theorem State.channel_setCode (s : State) (m k : ModuleNo) (j i : ChannelNo) (code : DriveCode) :
    (s.setCode m j code).channel k i =
      if k = m ∧ i = j then (s.channel m j).map (·.coded code) else s.channel k i := by
  cases h : s.channel m j with
  | none =>
    rw [State.setCode_of_absent h]
    split
    · next same => rw [same.1, same.2, h]; rfl
    · rfl
  | some ch =>
    by_cases hk : ch.isFaulted = true ∨ ch.drive = code
    · rw [State.setCode_of_kept h hk]
      split
      · next same => rw [same.1, same.2, h, Option.map_some, Channel.coded_of_kept hk]
      · rfl
    · rw [not_or, Bool.not_eq_true] at hk
      rw [State.setCode_of_differs h hk.1 hk.2, State.channel_setChannel, h, Option.map_some,
        Option.map_some, Channel.coded_of_differs hk.1 hk.2]

end SetCode

/-- Settles O40: what `State.channel_setCode` says of a record that takes the code or keeps its own. -/
theorem setCodeChangesOneNormalChannel : Obligations.SetCodeChangesOneNormalChannel := by
  intro s m j code ch h
  refine ⟨fun faulted => State.setCode_of_kept h (.inl faulted),
    fun same => State.setCode_of_kept h (.inr same),
    fun sound differs => ⟨?_, fun k i other => ?_, s.setCode_frame m j code⟩⟩
  · rw [State.channel_setCode, if_pos ⟨rfl, rfl⟩, h, Option.map_some,
      Channel.coded_of_differs sound differs]
  · rw [State.channel_setCode, if_neg other]

/-! ### Supervision of one channel (R95 to R97) -/

section Supervision

variable {c : Channel} (level : Bool) (t : Time) (settle : Nat)

theorem Channel.supervise_of_flash {mismatch : Option Time} (hc : c.condition = .normal mismatch)
    (hd : c.drive = .flash) : c.supervise level t settle = .unchanged c := by
  simp [Channel.supervise, hc, hd, DriveCode.expected]

theorem DriveCode.expected_eq {d : DriveCode} (h : d ≠ .flash) :
    d.expected = some (decide (d = .on)) := by
  cases d with
  | off => rfl
  | on => rfl
  | flash => exact absurd rfl h

theorem Channel.supervise_of_normal {mismatch : Option Time} (hc : c.condition = .normal mismatch)
    (hd : c.drive ≠ .flash) : c.supervise level t settle =
      if settled (runStart (level != decide (c.drive = .on)) mismatch t) t settle then
        .fault { c with drive := .off, condition := .faulted none }
      else .unchanged
        { c with condition := .normal (runStart (level != decide (c.drive = .on)) mismatch t) } := by
  simp only [Channel.supervise, hc, DriveCode.expected_eq hd]

theorem Channel.supervise_of_faulted {agreement : Option Time}
    (hc : c.condition = .faulted agreement) : c.supervise level t settle =
      if settled (runStart (!level) agreement t) t settle then .clear { c with condition := .normal none }
      else .unchanged { c with condition := .faulted (runStart (!level) agreement t) } := by
  simp only [Channel.supervise, hc]

theorem settled_of_started {start : Time} (h : settle ≤ interval start t) :
    settled (some start) t settle = true := decide_eq_true h

theorem not_settled_of_started {start : Time} (h : interval start t < settle) :
    settled (some start) t settle = false := decide_eq_false (Nat.not_le.2 h)

theorem interval_self : interval t t = 0 := by simp [interval]

end Supervision

/-- Settles O41: the run of the readback, and whether it has lasted the settle time. -/
theorem supervisionFaultsAndClears : Obligations.SupervisionFaultsAndClears := by
  intro ch level t settle positive
  refine ⟨fun mismatch hc hd => Channel.supervise_of_flash level t settle hc hd,
    fun mismatch hc hd => ?_, fun agreement hc => ?_⟩
  · have judged := Channel.supervise_of_normal level t settle hc hd
    have same : ({ ch with condition := .normal mismatch } : Channel) = ch := by rw [← hc]
    refine ⟨fun agrees => ?_, fun differs => ?_⟩
    · have ended : (level != decide (ch.drive = .on)) = false := by
        by_cases on : ch.drive = .on <;> simp_all
      rw [judged, ended]
      rfl
    · have running : (level != decide (ch.drive = .on)) = true := by
        by_cases on : ch.drive = .on <;> simp_all
      rw [running] at judged
      refine ⟨?_, ?_, ?_⟩
      · rintro rfl
        rw [judged]
        exact if_neg (by simp [runStart, settled, interval_self, positive.ne'])
      · rintro start rfl early
        rw [judged, runStart, if_pos rfl, Option.getD_some, not_settled_of_started t settle early, same]
        rfl
      · rintro start rfl late
        rw [judged, runStart, if_pos rfl, Option.getD_some, settled_of_started t settle late]
        rfl
  · have judged := Channel.supervise_of_faulted level t settle hc
    have same : ({ ch with condition := .faulted agreement } : Channel) = ch := by rw [← hc]
    refine ⟨?_, ?_⟩
    · rintro rfl
      rw [judged]
      rfl
    · rintro rfl
      have running : (!false) = true := rfl
      rw [running] at judged
      refine ⟨?_, ?_, ?_⟩
      · rintro rfl
        rw [judged]
        exact if_neg (by simp [runStart, settled, interval_self, positive.ne'])
      · rintro start rfl early
        rw [judged, runStart, if_pos rfl, Option.getD_some, not_settled_of_started t settle early, same]
        rfl
      · rintro start rfl late
        rw [judged, runStart, if_pos rfl, Option.getD_some, settled_of_started t settle late]
        rfl

/-! ### The acceptance of a CONTROL (R106) -/

/-- A CONTROL that passes every check of R105 takes the lowest FREE slot. -/
theorem State.judgeControl_ok {s : State} {c : ControlNo} {k : SlotNo}
    (configured : s.ts.mode ≠ .unconfigured) (open_ : s.ts.commitPending = false)
    (defined : (s.ts.active.commandEntry c).defined = true)
    (active : (s.moduleRec (s.ts.active.commandEntry c).mod).state = .active)
    (sound : s.channelFaulted (s.ts.active.commandEntry c).mod (s.ts.active.commandEntry c).channel = false)
    (unowned : s.ownerOf (s.ts.active.commandEntry c).mod (s.ts.active.commandEntry c).channel = none)
    (free : s.lowestFree = some k) (unshown : s.alreadyShown (s.ts.active.commandEntry c) = false) :
    s.judgeControl c = .ok k := by
  simp [State.judgeControl, (s.configured_iff).2 configured, open_, defined, active, sound, unowned,
    free, unshown]

/-- The dispatch of a telegram leaves its buffer, and an answer list that was empty (R137). -/
theorem State.Dispatches.answered_dli {s : State} {x : RxTelegram} {rest : List RxTelegram}
    (h : s.Dispatches x rest) : (s.answered rest []).dli = { s.dli with buffers := rest } := by
  simp [State.answered, h.noAnswer]

/-- Settles O8: the checks pass, so the slot and the code are those of `State.takeControl`. -/
theorem acceptedControlOccupiesLowestFreeSlot : Obligations.AcceptedControlOccupiesLowestFreeSlot := by
  intro s received rest c k ch h e configured open_ defined active hch sound unowned free lowest
    unshown code
  have obeyed : exec .control s =
      .next ((s.answered rest []).takeControl (controlOf (u8 c))).transmitNext :=
    h.dispatch_eq rfl _
  rw [controlOf_u8] at obeyed
  have accepted : (s.answered rest []).judgeControl c = .ok k := by
    refine State.judgeControl_ok (s := s.answered rest []) configured open_ defined active ?_
      ((State.ownerOf_eq_none _ _ _).2 unowned) ((State.lowestFree_eq_some _ k).2 ⟨free, lowest⟩) ?_
    · rw [State.channelFaulted_eq]
      show (s.channel e.mod e.channel).any Channel.isFaulted = false
      rw [hch]
      exact sound
    · rw [State.alreadyShown_eq, Bool.not_eq_false', Option.all_eq_true]
      exact fun p hp => decide_eq_true (unshown p hp)
  have codeEq : e.mode.code = code := by
    show e.mode.code = match e.mode with
      | .pulse | .set => .on
      | .clear => .off
      | .flash => .flash
    cases e.mode <;> rfl
  have taken : (s.answered rest []).takeControl c =
      ((s.answered rest []).setSlot k (some (e.slotAt c s.now))).setCode e.mod e.channel code := by
    rw [State.takeControl, accepted, ← codeEq]
    rfl
  have coded := ((s.answered rest []).setSlot k (some (e.slotAt c s.now))).setCode_frame
    e.mod e.channel code
  rw [taken] at obeyed
  have slots (j : SlotNo) := (coded.slot_eq (by decide) j).trans
    ((s.answered rest []).slot_setSlot k j (some (e.slotAt c s.now)))
  have channels (m : ModuleNo) (j : ChannelNo) := State.channel_setCode
    ((s.answered rest []).setSlot k (some (e.slotAt c s.now))) e.mod m e.channel j code
  refine ⟨_, obeyed, ?_, fun j hj => (slots j).trans (if_neg hj), ?_, fun m j other => ?_,
    (coded.blocks .dli (by decide)).trans h.dispatches.answered_dli, ?_⟩
  · refine ((slots k).trans (if_pos rfl)).trans ?_
    rw [CommandEntry.slotAt]
    cases e.proving <;> rfl
  · refine (channels _ _).trans ?_
    rw [if_pos ⟨rfl, rfl⟩]
    show (s.channel e.mod e.channel).map (·.coded code) = _
    rw [hch]
    simp only [Option.map_some, Channel.coded, sound, Bool.false_eq_true, false_or]
  · exact (channels m j).trans (if_neg other)
  · exact ((s.answered_frame rest []).mono (by decide)).trans
      (((State.setSlot_frame _ _ _).mono (by decide)).trans (coded.mono (by decide)))

end Sys2Proof.Machine

/-! PROOFS. The proving deadline, proof and desk silence (R110, R109, R115, R146): what each does at one slot, and
what a sweep over the slots then leaves in the slots, the queue and the channels. -/

namespace Sys2Proof.Machine

/-! ### The proving deadline (R110) -/

/-- Settles O12: the deadline has fallen due, and the slot ends by the state of its proving point. -/
theorem provingDeadlineEndsTheSlot : Obligations.ProvingDeadlineEndsTheSlot := by
  intro s k sl p x due running hk phase proving deadline hd result hresult q d
  have found : s.deadlineDue k = some (sl, due) := by
    simp [State.deadlineDue, hk, deadline, phase, hd]
  have ended : exec (.provingDeadline k) s = .next (s.endProving k sl due).transmitNext := by
    simp only [exec, execProvingDeadline]
    exact State.occur_eq running (by rw [found]; rfl)
  have effect : s.endProving k sl due = d.setSlot k none := by
    have ends (unproved : CommandResult) (issued : result = unproved)
        (h : s.endProving k sl due = State.freeSlot (if sl.pulseEnd.isSome then
          (s.issue sl.control unproved due).setCode sl.mod sl.channel .off
          else s.issue sl.control unproved due) k) : s.endProving k sl due = d.setSlot k none := by
      rw [h, ← issued]
      cases hp : sl.pulseEnd with
      | none => simp only [d, hp]; rfl
      | some e => simp only [d, hp]; rfl
    cases known : (s.pointRec p).evaluated with
    | unknown cause =>
      refine ends .unprovable (by rw [hresult, known]) ?_
      simp only [State.endProving, proving, known]
    | known value =>
      refine ends .notProved (by rw [hresult, known]) ?_
      simp only [State.endProving, proving, known]
  rw [ended, effect]

/-! ### What one event makes of one slot -/

/-- What an event makes of an occupied slot: the result it issues, whether it requests OFF of the slot's
channel, and what is left in the slot. -/
structure SlotEnd where
  result : Option CommandResult
  off : Bool
  left : Option Slot

/-- The state after an event at one slot: the result is handed, then the code requested, then the slot
written (R107 to R116). -/
def State.settleSlot (s : State) (k : SlotNo) (sl : Slot) (t : Time) (e : SlotEnd) : State :=
  let handed := match e.result with
    | none => s
    | some r => s.hand t (.commandResult sl.control r)
  let coded := if e.off then handed.setCode sl.mod sl.channel .off else handed
  coded.setSlot k e.left

section Settle

variable (s : State)

theorem State.hand_slot (t : Time) (c : RecordContent) (k : SlotNo) : (s.hand t c).slot k = s.slot k :=
  (s.hand_frame t c).slot_eq (by decide) k

theorem State.hand_channel (t : Time) (c : RecordContent) (m : ModuleNo) (j : ChannelNo) :
    (s.hand t c).channel m j = s.channel m j :=
  (s.hand_frame t c).channel_eq (by decide) m j

theorem State.hand_cq {s : State} (room : s.cq.queue.length < 256) (t : Time) (c : RecordContent) :
    (s.hand t c).cq = { s.cq with queue := s.cq.queue ++
      [{ refresh := false, deskTime := t + s.tb.offset, content := c }] } := by
  rw [State.hand, if_pos (show s.cq.queue.length < Config.queueCapacity from room)]
  rfl

theorem State.setCode_slot (m : ModuleNo) (j : ChannelNo) (code : DriveCode) (k : SlotNo) :
    (s.setCode m j code).slot k = s.slot k :=
  (s.setCode_frame m j code).slot_eq (by decide) k

theorem State.setCode_cq (m : ModuleNo) (j : ChannelNo) (code : DriveCode) :
    (s.setCode m j code).cq = s.cq :=
  (s.setCode_frame m j code).blocks .cq (by decide)

theorem State.setSlot_channel (k : SlotNo) (o : Option Slot) (m : ModuleNo) (j : ChannelNo) :
    (s.setSlot k o).channel m j = s.channel m j :=
  (s.setSlot_frame k o).channel_eq (by decide) m j

variable (k : SlotNo) (sl : Slot) (t : Time) (e : SlotEnd)

theorem State.settleSlot_slot (j : SlotNo) :
    (s.settleSlot k sl t e).slot j = if j = k then e.left else s.slot j := by
  rw [State.settleSlot, State.slot_setSlot]
  cases e.result <;> cases e.off <;> simp [State.setCode_slot, State.hand_slot]

theorem State.settleSlot_channel (m : ModuleNo) (j : ChannelNo) :
    (s.settleSlot k sl t e).channel m j =
      if (e.off && decide (m = sl.mod ∧ j = sl.channel)) = true then (s.channel m j).map (·.coded .off)
      else s.channel m j := by
  rw [State.settleSlot, State.setSlot_channel]
  cases hoff : e.off with
  | false => cases e.result <;> simp [State.hand_channel]
  | true =>
    simp only [if_true, State.channel_setCode, Bool.true_and, decide_eq_true_eq]
    split
    · next same => rw [same.1, same.2]; cases e.result <;> simp [State.hand_channel]
    · cases e.result <;> simp [State.hand_channel]

theorem State.settleSlot_cq {s : State} (room : s.cq.queue.length < 256) :
    (s.settleSlot k sl t e).cq = { s.cq with queue := s.cq.queue ++ (e.result.map fun r =>
      { refresh := false, deskTime := t + s.tb.offset,
        content := .commandResult sl.control r : Record }).toList } := by
  have handed : (match e.result with
      | none => s
      | some r => s.hand t (.commandResult sl.control r)).cq = { s.cq with queue :=
        s.cq.queue ++ (e.result.map fun r =>
          { refresh := false, deskTime := t + s.tb.offset, content := .commandResult sl.control r : Record }).toList } := by
    cases e.result with
    | none => simp
    | some r => exact State.hand_cq room t _
  rw [State.settleSlot, State.setSlot_cq]
  cases e.off with
  | false => exact handed
  | true => exact (State.setCode_cq _ _ _ _).trans handed

theorem State.settleSlot_frame : Frame commandBlocks s (s.settleSlot k sl t e) := by
  refine Frame.trans ?_ ((State.setSlot_frame _ _ _).mono (by decide))
  have handed : Frame commandBlocks s (match e.result with
      | none => s
      | some r => s.hand t (.commandResult sl.control r)) := by
    cases e.result with
    | none => exact .refl _ s
    | some r => exact (s.hand_frame _ _).mono (by decide)
  cases e.off with
  | true => exact handed.trans ((State.setCode_frame _ _ _ _).mono (by decide))
  | false => exact handed

end Settle

/-! ### A sweep over the slots -/

/-- One event at one slot, at its time `t`, by the slot's contents. -/
def State.sweepSlot (plan : Slot → Option SlotEnd) (t : Time) (s : State) (k : SlotNo) : State :=
  match s.slot k with
  | none => s
  | some sl =>
    match plan sl with
    | none => s
    | some e => s.settleSlot k sl t e

section Sweep

variable {s : State} {plan : Slot → Option SlotEnd} {t : Time}

theorem State.sweepSlot_of_free {k : SlotNo} (h : s.slot k = none) : s.sweepSlot plan t k = s := by
  rw [State.sweepSlot, h]

theorem State.sweepSlot_of_spared {k : SlotNo} {sl : Slot} (h : s.slot k = some sl)
    (hp : plan sl = none) : s.sweepSlot plan t k = s := by
  simp only [State.sweepSlot, h, hp]

theorem State.sweepSlot_of_ended {k : SlotNo} {sl : Slot} {e : SlotEnd} (h : s.slot k = some sl)
    (hp : plan sl = some e) : s.sweepSlot plan t k = s.settleSlot k sl t e := by
  simp only [State.sweepSlot, h, hp]

theorem State.sweepSlot_cases (plan : Slot → Option SlotEnd) (t : Time) (s : State) (k : SlotNo) :
    (s.sweepSlot plan t k = s ∧ (s.slot k).bind plan = none) ∨
    ∃ sl e, s.slot k = some sl ∧ plan sl = some e ∧ s.sweepSlot plan t k = s.settleSlot k sl t e := by
  cases h : s.slot k with
  | none => exact .inl ⟨State.sweepSlot_of_free h, rfl⟩
  | some sl =>
    cases hp : plan sl with
    | none => exact .inl ⟨State.sweepSlot_of_spared h hp, hp⟩
    | some e => exact .inr ⟨sl, e, rfl, hp, State.sweepSlot_of_ended h hp⟩

theorem State.sweepSlot_frame (plan : Slot → Option SlotEnd) (t : Time) (s : State) (k : SlotNo) :
    Frame commandBlocks s (s.sweepSlot plan t k) := by
  rcases State.sweepSlot_cases plan t s k with ⟨e, -⟩ | ⟨sl, e, -, -, eq⟩
  · rw [e]; exact .refl _ s
  · rw [eq]; exact s.settleSlot_frame k sl t e

theorem State.sweepSlot_other (plan : Slot → Option SlotEnd) (t : Time) (s : State) {k j : SlotNo}
    (h : j ≠ k) : (s.sweepSlot plan t k).slot j = s.slot j := by
  rcases State.sweepSlot_cases plan t s k with ⟨e, -⟩ | ⟨sl, e, -, -, eq⟩
  · rw [e]
  · rw [eq, State.settleSlot_slot, if_neg h]

/-- A sweep is a walk through the states that its steps reach, in each of which the slots to come are as
they were. -/
theorem sweep_induction (P : List SlotNo → State → Prop) (start : P [] s)
    (next : ∀ done k u, k ∉ done → Frame commandBlocks s u → u.slot k = s.slot k → P done u →
      P (done ++ [k]) (u.sweepSlot plan t k)) :
    P allSlots (allSlots.foldl (State.sweepSlot plan t) s) := by
  have walk : ∀ (todo done : List SlotNo) (u : State), (done ++ todo).Nodup →
      Frame commandBlocks s u → (∀ j, j ∉ done → u.slot j = s.slot j) → P done u →
      P (done ++ todo) (todo.foldl (State.sweepSlot plan t) u) := by
    intro todo
    induction todo with
    | nil => intro done u _ _ _ h; simpa using h
    | cons k todo ih =>
      intro done u distinct hu same h
      have split : done ++ k :: todo = (done ++ [k]) ++ todo := by simp
      have fresh : k ∉ done := fun hk =>
        (List.nodup_append.1 distinct).2.2 k hk k (List.mem_cons_self ..) rfl
      rw [split] at distinct ⊢
      refine ih (done ++ [k]) (u.sweepSlot plan t k) distinct
        (hu.trans (State.sweepSlot_frame plan t u k)) (fun j hj => ?_)
        (next done k u fresh hu (same k fresh) h)
      simp only [List.mem_append, List.mem_singleton, not_or] at hj
      exact (State.sweepSlot_other plan t u hj.2).trans (same j hj.1)
  exact walk allSlots [] s (List.nodup_finRange 16) (.refl _ s) (fun _ _ => rfl) start

theorem sweep_frame : Frame commandBlocks s (allSlots.foldl (State.sweepSlot plan t) s) :=
  Frame.foldl _ (State.sweepSlot_frame plan t) _ s

theorem sweep_slot (k : SlotNo) : (allSlots.foldl (State.sweepSlot plan t) s).slot k =
    (s.slot k).bind fun sl => (plan sl).elim (some sl) SlotEnd.left := by
  refine foldl_slots s (g := fun _ o => o.bind fun sl => (plan sl).elim (some sl) SlotEnd.left)
    (fun u k => ?_) (fun u k j hj => State.sweepSlot_other plan t u hj) k
  rcases State.sweepSlot_cases plan t u k with ⟨e, hp⟩ | ⟨sl, e, hk, hp, eq⟩
  · rw [e]
    cases hk : u.slot k with
    | none => rfl
    | some sl =>
      rw [hk] at hp
      have spared : plan sl = none := hp
      simp [spared]
  · rw [eq, State.settleSlot_slot, if_pos rfl, hk]
    simp [hp]

/-- A sweep hands its results in slot order, while the queue has room for one from each slot. -/
theorem sweep_cq (room : s.cq.queue.length ≤ 240) :
    (allSlots.foldl (State.sweepSlot plan t) s).cq = { s.cq with queue := s.cq.queue ++
      (allSlots.filterMap fun k => (s.slot k).bind fun sl => (plan sl).bind fun e => e.result.map fun r =>
        { refresh := false, deskTime := t + s.tb.offset, content := .commandResult sl.control r }) } := by
  set out : SlotNo → Option Record := fun k => (s.slot k).bind fun sl => (plan sl).bind fun e =>
    e.result.map fun r =>
      { refresh := false, deskTime := t + s.tb.offset, content := .commandResult sl.control r }
  refine (sweep_induction (fun done u => done.Nodup ∧
    u.cq = { s.cq with queue := s.cq.queue ++ done.filterMap out }) ⟨List.nodup_nil, by simp⟩ ?_).2
  rintro done k u fresh hu same ⟨distinct, queued⟩
  have distinct' : (done ++ [k]).Nodup := by
    rw [List.nodup_append]
    exact ⟨distinct, List.nodup_singleton k, fun a ha b hb => by
      rw [List.mem_singleton.1 hb]; rintro rfl; exact fresh ha⟩
  have room' : u.cq.queue.length < 256 := by
    have few := distinct'.length_le_card
    have fewer := List.length_filterMap_le out done
    simp only [List.length_append, List.length_singleton, Fintype.card_fin] at few
    rw [queued]
    simp only [List.length_append]
    omega
  have single : [k].filterMap out = (out k).toList := by cases h : out k <;> simp [h]
  have offset : u.tb.offset = s.tb.offset := congrArg TimeBase.offset (hu.blocks .tb (by decide))
  refine ⟨distinct', ?_⟩
  rw [List.filterMap_append, single, ← List.append_assoc]
  rcases State.sweepSlot_cases plan t u k with ⟨e, hp⟩ | ⟨sl, e, hk, hp, eq⟩
  · have none : out k = none := by
      rw [same] at hp
      show (s.slot k).bind _ = none
      cases hk : s.slot k with
      | none => rfl
      | some sl =>
        rw [hk] at hp
        have spared : plan sl = none := hp
        simp [spared]
    rw [e, queued, none]
    simp
  · have one : out k = e.result.map fun r =>
        { refresh := false, deskTime := t + s.tb.offset, content := .commandResult sl.control r } := by
      show (s.slot k).bind _ = _
      rw [← same, hk]
      simp [hp]
    rw [eq, State.settleSlot_cq k sl t e room', queued, one, offset]

/-- The sweep requests OFF of a channel. -/
def State.SweepsOff (s : State) (plan : Slot → Option SlotEnd) (k : SlotNo) (m : ModuleNo)
    (j : ChannelNo) : Prop :=
  ∃ sl e, s.slot k = some sl ∧ plan sl = some e ∧ e.off = true ∧ m = sl.mod ∧ j = sl.channel

/-- One step of a sweep at a channel. -/
theorem State.sweepSlot_channel (plan : Slot → Option SlotEnd) (t : Time) (s : State) (k : SlotNo)
    (m : ModuleNo) (j : ChannelNo) :
    (s.SweepsOff plan k m j → (s.sweepSlot plan t k).channel m j = (s.channel m j).map (·.coded .off)) ∧
    (¬ s.SweepsOff plan k m j → (s.sweepSlot plan t k).channel m j = s.channel m j) := by
  rcases State.sweepSlot_cases plan t s k with ⟨eq, hp⟩ | ⟨sl, e, hk, hp, eq⟩
  · refine ⟨fun ⟨sl, e, hk, he, _⟩ => ?_, fun _ => by rw [eq]⟩
    rw [hk, Option.bind_some, he] at hp
    cases hp
  · rw [eq, State.settleSlot_channel]
    refine ⟨fun ⟨sl', e', hk', hp', off, same⟩ => ?_, fun kept => if_neg fun off => ?_⟩
    · cases hk.symm.trans hk'
      cases hp.symm.trans hp'
      exact if_pos (by simp [off, same])
    · simp only [Bool.and_eq_true, decide_eq_true_eq] at off
      exact kept ⟨sl, e, hk, hp, off.1, off.2⟩

/-- A sweep leaves OFF in the channels of which it requests it, and every other channel as it was. -/
theorem sweep_channel (m : ModuleNo) (j : ChannelNo) :
    ((∃ k, s.SweepsOff plan k m j) → (allSlots.foldl (State.sweepSlot plan t) s).channel m j =
      (s.channel m j).map (·.coded .off)) ∧
    ((¬ ∃ k, s.SweepsOff plan k m j) →
      (allSlots.foldl (State.sweepSlot plan t) s).channel m j = s.channel m j) := by
  have visited := sweep_induction (s := s) (plan := plan) (t := t) (fun done u =>
    ((∃ k ∈ done, s.SweepsOff plan k m j) → u.channel m j = (s.channel m j).map (·.coded .off)) ∧
    ((∀ k ∈ done, ¬ s.SweepsOff plan k m j) → u.channel m j = s.channel m j)) (by simp) ?_
  · exact ⟨fun ⟨k, hk⟩ => visited.1 ⟨k, List.mem_finRange k, hk⟩,
      fun h => visited.2 fun k _ hk => h ⟨k, hk⟩⟩
  rintro done k u - - same ⟨offed, kept⟩
  have here : u.SweepsOff plan k m j ↔ s.SweepsOff plan k m j := by
    unfold State.SweepsOff; rw [same]
  obtain ⟨sets, spares⟩ := State.sweepSlot_channel plan t u k m j
  simp only [List.mem_append, List.mem_singleton]
  refine ⟨fun ⟨i, hi, off⟩ => ?_, fun none => ?_⟩
  · by_cases before : ∃ i ∈ done, s.SweepsOff plan i m j
    · by_cases now : s.SweepsOff plan k m j
      · rw [sets (here.2 now), offed before, Option.map_map]
        congr 1
        exact funext fun c => c.coded_coded .off
      · rw [spares (mt here.1 now), offed before]
    · rcases hi with hi | rfl
      · exact absurd ⟨i, hi, off⟩ before
      · rw [sets (here.2 off), kept fun i hi h => before ⟨i, hi, h⟩]
  · rw [spares (mt here.1 (none k (.inr rfl))), kept fun i hi => none i (.inl hi)]

end Sweep

/-- An operation that does at every slot what a sweep does is that sweep. -/
theorem foldl_eq_sweep {s : State} {f : State → SlotNo → State} {plan : Slot → Option SlotEnd} {t : Time}
    (h : ∀ u k, Frame commandBlocks s u → f u k = u.sweepSlot plan t k) :
    allSlots.foldl f s = allSlots.foldl (State.sweepSlot plan t) s := by
  have walk : ∀ (l : List SlotNo) (u : State), Frame commandBlocks s u →
      l.foldl f u = l.foldl (State.sweepSlot plan t) u := by
    intro l
    induction l with
    | nil => exact fun _ _ => rfl
    | cons k l ih =>
      intro u hu
      rw [List.foldl_cons, List.foldl_cons, h u k hu]
      exact ih _ (hu.trans (State.sweepSlot_frame plan t u k))
  exact walk allSlots s (.refl _ s)

/-! ### Proof (R109) -/

section Proof

variable {p : PointNo} {new : PointState}

/-- The slot is PROVING and expects the new evaluated state of the point. -/
def Slot.provedBy (sl : Slot) (p : PointNo) (new : PointState) : Bool :=
  decide (sl.phase = .proving) && sl.proving.any fun x => decide (x.1 = p ∧ new = .known x.2)

theorem Slot.provedBy_iff (sl : Slot) (p : PointNo) (new : PointState) : sl.provedBy p new = true ↔
    sl.phase = .proving ∧ ∃ x, sl.proving = some (p, x) ∧ new = .known x := by
  simp only [Slot.provedBy, Bool.and_eq_true, decide_eq_true_eq, Option.any_eq_true, Prod.exists]
  exact and_congr_right fun _ => ⟨fun ⟨q, x, hq, same, known⟩ => ⟨x, same ▸ hq, known⟩,
    fun ⟨x, hq, known⟩ => ⟨p, x, hq, rfl, known⟩⟩

/-- What proof makes of a slot (R109). -/
def proofPlan (p : PointNo) (new : PointState) (sl : Slot) : Option SlotEnd :=
  if sl.provedBy p new = true then some
    { result := some .proved
      off := sl.pulseEnd.isSome && sl.endOnProof
      left := if sl.pulseEnd = none ∨ sl.endOnProof = true then none
        else some { sl with phase := .finishing, deadline := none, result := some .proved } }
  else none

theorem State.proveSlot_eq (s : State) (k : SlotNo) (sl : Slot) (t : Time) :
    s.proveSlot k sl t = s.settleSlot k sl t
      { result := some .proved
        off := sl.pulseEnd.isSome && sl.endOnProof
        left := if sl.pulseEnd = none ∨ sl.endOnProof = true then none
          else some { sl with phase := .finishing, deadline := none, result := some .proved } } := by
  unfold State.proveSlot
  cases hp : sl.pulseEnd <;> cases he : sl.endOnProof <;> rfl

theorem State.noticeSlot_eq (s : State) (k : SlotNo) :
    s.noticeSlot p new k = s.sweepSlot (proofPlan p new) s.now k := by
  unfold State.noticeSlot
  cases hk : s.slot k with
  | none => rw [State.sweepSlot_of_free hk]
  | some sl =>
    dsimp only
    by_cases proved : sl.provedBy p new = true
    · rw [State.sweepSlot_of_ended hk (if_pos proved), ← State.proveSlot_eq]
      obtain ⟨phase, x, proving, known⟩ := (sl.provedBy_iff p new).1 proved
      simp [proving, phase, known]
    · rw [State.sweepSlot_of_spared hk (if_neg proved)]
      rw [Slot.provedBy_iff] at proved
      cases hp : sl.proving with
      | none => simp
      | some qx =>
        obtain ⟨q, x⟩ := qx
        exact if_neg fun ⟨phase, same, known⟩ => proved ⟨phase, x, by rw [hp, same], known⟩

theorem State.csuNotice_eq (s : State) (p : PointNo) (new : PointState) :
    s.csuNotice p new = allSlots.foldl (State.sweepSlot (proofPlan p new) s.now) s :=
  foldl_eq_sweep fun u k hu => by rw [State.noticeSlot_eq, hu.now_eq (by decide)]

/-- The notice requests OFF of the channels of the proved slots that end on proof while their pulse
runs. -/
theorem State.sweepsOff_proofPlan (s : State) (k : SlotNo) (m : ModuleNo) (j : ChannelNo) :
    s.SweepsOff (proofPlan p new) k m j ↔ ∃ sl x, s.slot k = some sl ∧ sl.phase = .proving ∧
      sl.proving = some (p, x) ∧ new = .known x ∧ sl.pulseEnd ≠ none ∧ sl.endOnProof = true ∧
      sl.mod = m ∧ sl.channel = j := by
  constructor
  · rintro ⟨sl, e, hk, he, off, rfl, rfl⟩
    by_cases proved : sl.provedBy p new = true
    · obtain ⟨phase, x, proving, known⟩ := (sl.provedBy_iff p new).1 proved
      rw [proofPlan, if_pos proved, Option.some_inj] at he
      rw [← he, Bool.and_eq_true, Option.isSome_iff_ne_none] at off
      exact ⟨sl, x, hk, phase, proving, known, off.1, off.2, rfl, rfl⟩
    · rw [proofPlan, if_neg proved] at he
      cases he
  · rintro ⟨sl, x, hk, phase, proving, known, pulse, ends, rfl, rfl⟩
    have proved : sl.provedBy p new = true := (sl.provedBy_iff p new).2 ⟨phase, x, proving, known⟩
    exact ⟨sl, _, hk, if_pos proved, by simp [Option.isSome_iff_ne_none, pulse, ends], rfl, rfl⟩

end Proof

/-- Settles O13: the notice is the sweep of `proofPlan` at the present time. -/
theorem proofActsOnEverySlot : Obligations.ProofActsOnEverySlot := by
  intro s p new
  have slots (k : SlotNo) : (s.csuNotice p new).slot k =
      (s.slot k).bind fun sl => (proofPlan p new sl).elim (some sl) SlotEnd.left := by
    rw [State.csuNotice_eq]; exact sweep_slot k
  refine ⟨fun k free => by rw [slots, free]; rfl, fun k sl hk spared => ?_, fun k sl x hk phase proving
    known => ?_, fun x known room => ?_, fun m j ch hch => ?_, s.csuNotice_frame p new,
    fun cause unknown => ?_⟩
  · rw [slots, hk, Option.bind_some, proofPlan, if_neg (mt (sl.provedBy_iff p new).1 spared)]
    rfl
  · have proved : sl.provedBy p new = true := (sl.provedBy_iff p new).2 ⟨phase, x, proving, known⟩
    rw [slots, hk, Option.bind_some, proofPlan, if_pos proved]
    rfl
  · rw [State.csuNotice_eq, sweep_cq room]
    refine congrArg (fun q => { s.cq with queue := s.cq.queue ++ q })
      (List.filterMap_congr fun k _ => congrArg (Option.bind (s.slot k)) (funext fun sl => ?_))
    have iff : sl.provedBy p new = true ↔ sl.phase = .proving ∧ sl.proving = some (p, x) := by
      rw [Slot.provedBy_iff, known]
      simp
    simp only [proofPlan, iff]
    split <;> rfl
  · intro ends
    have off : (∃ k, s.SweepsOff (proofPlan p new) k m j) ↔ ends :=
      exists_congr fun k => s.sweepsOff_proofPlan k m j
    obtain ⟨sets, spares⟩ := sweep_channel (s := s) (plan := proofPlan p new) (t := s.now) m j
    rw [off, ← State.csuNotice_eq, hch, Option.map_some] at sets
    rw [off, ← State.csuNotice_eq, hch] at spares
    refine ⟨fun he sound differs => (sets he).trans (by rw [Channel.coded_of_differs sound differs]),
      fun kept => ?_⟩
    by_cases he : ends
    · rw [sets he, Channel.coded_of_kept (kept.resolve_left (not_not_intro he))]
    · exact spares he
  · rw [State.csuNotice_eq]
    have spared (sl : Slot) : proofPlan p new sl = none := by
      refine if_neg fun proved => ?_
      obtain ⟨-, x, -, known⟩ := (sl.provedBy_iff p new).1 proved
      cases unknown.symm.trans known
    have still (u : State) (k : SlotNo) : u.sweepSlot (proofPlan p new) s.now k = u := by
      cases hk : u.slot k with
      | none => exact State.sweepSlot_of_free hk
      | some sl => exact State.sweepSlot_of_spared hk (spared sl)
    exact List.foldl_fixed' (fun k => still s k) allSlots

/-! ### Desk silence (R115, R146) -/

/-- What a desk-silence expiry makes of a slot (R115). -/
def silencePlan (sl : Slot) : Option SlotEnd := some
  { result := if sl.phase = .finishing then none else some .cancelledLink
    off := decide (sl.mode = .pulse) && sl.pulseEnd.isSome
    left := none }

theorem State.silenceSlot_eq (s : State) (t : Time) (k : SlotNo) :
    s.silenceSlot t k = s.sweepSlot silencePlan t k := by
  unfold State.silenceSlot
  cases hk : s.slot k with
  | none => rw [State.sweepSlot_of_free hk]
  | some sl =>
    rw [State.sweepSlot_of_ended hk rfl]
    simp only [State.issueIfOpen_eq, State.settleSlot, State.freeSlot, Bool.and_eq_true,
      decide_eq_true_eq]
    by_cases finishing : sl.phase = .finishing <;> simp [finishing]

theorem State.csuSilence_eq (s : State) (t : Time) :
    s.csuSilence t = (allSlots.foldl (State.sweepSlot silencePlan t) s).dropFlashing := by
  rw [State.csuSilence, foldl_eq_sweep fun u k _ => u.silenceSlot_eq t k]

theorem State.channel_dropFlashing (s : State) (m : ModuleNo) (j : ChannelNo) :
    s.dropFlashing.channel m j = (s.channel m j).map Channel.dropFlash := by
  have bank : s.dropFlashing.channelBank m =
      (s.channelBank m).map (Table.update .init fun _ c => c.dropFlash) :=
    Table.get_update none (fun _ o => o.map _) (fun _ => rfl) s.channels m
  rw [State.channel, bank, State.channel, Option.map_map, Option.map_map]
  congr 1
  funext b
  exact Table.get_update .init (fun _ c => c.dropFlash) (fun _ => rfl) b j

theorem Channel.dropFlash_of_off {c : Channel} (h : c.drive = .off) : c.dropFlash = c :=
  if_neg (by rw [h]; decide)

theorem State.sweepsOff_silencePlan (s : State) (k : SlotNo) (m : ModuleNo) (j : ChannelNo) :
    s.SweepsOff silencePlan k m j ↔ ∃ sl, s.slot k = some sl ∧ sl.mode = .pulse ∧ sl.pulseEnd ≠ none ∧
      sl.mod = m ∧ sl.channel = j := by
  constructor
  · rintro ⟨sl, e, hk, he, off, rfl, rfl⟩
    cases he
    rw [Bool.and_eq_true, decide_eq_true_eq, Option.isSome_iff_ne_none] at off
    exact ⟨sl, hk, off.1, off.2, rfl, rfl⟩
  · rintro ⟨sl, hk, mode, pulse, rfl, rfl⟩
    exact ⟨sl, _, hk, rfl, by simp [Option.isSome_iff_ne_none, mode, pulse], rfl, rfl⟩

section Silence

variable (s : State) (e : Time)

theorem State.csuSilence_slot (k : SlotNo) : (s.csuSilence e).slot k = none := by
  rw [State.csuSilence_eq, (State.dropFlashing_frame _).slot_eq (by decide), sweep_slot]
  cases s.slot k <;> rfl

theorem State.csuSilence_cq {s : State} (room : s.cq.queue.length ≤ 240) :
    (s.csuSilence e).cq = { s.cq with
      queue := s.cq.queue ++ (List.finRange 16).filterMap fun k => (s.slot k).bind fun sl =>
        if sl.phase ≠ .finishing then
          some { refresh := false, deskTime := e + s.tb.offset,
                 content := .commandResult sl.control .cancelledLink }
        else none } := by
  rw [State.csuSilence_eq, (State.dropFlashing_frame _).blocks .cq (by decide), sweep_cq room]
  refine congrArg (fun q => { s.cq with queue := s.cq.queue ++ q })
    (List.filterMap_congr fun k _ => congrArg (Option.bind (s.slot k)) (funext fun sl => ?_))
  by_cases finishing : sl.phase = .finishing <;> simp [silencePlan, finishing]

/-- A channel whose pulse ends goes OFF, and then FLASH is dropped. -/
theorem State.csuSilence_channel (m : ModuleNo) (j : ChannelNo) :
    ((∃ k, s.SweepsOff silencePlan k m j) →
      (s.csuSilence e).channel m j = (s.channel m j).map fun c => (c.coded .off).dropFlash) ∧
    ((¬ ∃ k, s.SweepsOff silencePlan k m j) →
      (s.csuSilence e).channel m j = (s.channel m j).map Channel.dropFlash) := by
  obtain ⟨sets, spares⟩ := sweep_channel (s := s) (plan := silencePlan) (t := e) m j
  rw [State.csuSilence_eq, State.channel_dropFlashing]
  exact ⟨fun h => by rw [sets h, Option.map_map]; rfl, fun h => by rw [spares h]⟩

end Silence

/-- The part at a desk-silence expiry, before the CSU takes it (R146). -/
def State.silenced (s : State) : State :=
  { s with dli := { s.dli with
      linkSilent := true, silenceEvents := bump s.dli.silenceEvents, expiryOpen := true } }

theorem execDeskSilenceExpiry_of_due {s : State} (running : s.Running)
    (configured : s.ts.mode ≠ .unconfigured) (timed : s.system.silenceTime ≠ 0)
    (heard : s.dli.linkSilent = false)
    (due : s.system.silenceTime ≤ interval s.dli.silenceStart s.now) :
    exec .deskSilenceExpiry s =
      .next (s.silenced.csuSilence (after s.dli.silenceStart s.system.silenceTime)).transmitNext := by
  have expired : s.silenceDue = true := by
    simp [State.silenceDue, (s.configured_iff).2 configured, timed, heard, due]
  simp only [exec, execDeskSilenceExpiry]
  exact State.occur_eq running (if_pos expired)

/-- Settles O14: the CSU's part is the sweep of `silencePlan`, and then FLASH is dropped. -/
theorem deskSilenceEndsSlotsAndFlashing : Obligations.DeskSilenceEndsSlotsAndFlashing := by
  intro s running configured timed heard due
  have frame := s.silenced.csuSilence_frame (after s.dli.silenceStart s.system.silenceTime)
  refine ⟨_, execDeskSilenceExpiry_of_due running configured timed heard due,
    frame.blocks .dli (by decide), s.silenced.csuSilence_slot _,
    fun room => State.csuSilence_cq (s := s.silenced) _ room, fun m j absent => ?_,
    fun m j ch hch => ?_, ?_⟩
  · have before : s.silenced.channel m j = none := absent
    obtain ⟨sets, spares⟩ := s.silenced.csuSilence_channel
      (after s.dli.silenceStart s.system.silenceTime) m j
    rw [before] at sets spares
    by_cases off : ∃ k, s.silenced.SweepsOff silencePlan k m j
    · exact sets off
    · exact spares off
  · intro pulses
    have off : (∃ k, s.silenced.SweepsOff silencePlan k m j) ↔ pulses :=
      exists_congr fun k => s.silenced.sweepsOff_silencePlan k m j
    have before : s.silenced.channel m j = some ch := hch
    obtain ⟨sets, spares⟩ := s.silenced.csuSilence_channel
      (after s.dli.silenceStart s.system.silenceTime) m j
    rw [off, before, Option.map_some] at sets spares
    refine ⟨fun he sound differs => (sets he).trans ?_, fun kept => ?_⟩
    · rw [Channel.coded_of_differs sound differs, Channel.dropFlash_of_off rfl]
    · by_cases he : pulses
      · rw [sets he, Channel.coded_of_kept (kept.resolve_left (not_not_intro he))]
        rfl
      · exact spares he
  · have silenced : Frame [.channels, .slots, .cq, .dli] s s.silenced :=
      ((Keeps.of_dli (s := s)).frame).mono (by decide)
    exact silenced.trans (frame.mono (by decide))

end Sys2Proof.Machine

/-! PROOFS. The evaluation of one point: SINGLE and PAIR (Chapter 2), FLASHER (Chapter 3), period and duty
(R47). -/

namespace Sys2Proof.Machine

/-! ### The candidate (R20, R22) -/

theorem ripe_iff (start t : Time) (filter : Nat) :
    ripe start t filter = true ↔ filter ≤ interval start t := decide_eq_true_iff

/-- The start of the candidate that a sample with a target leaves (R22). -/
def candidateStart (before : Option Candidate) (target : StateValue) (t : Time) : Time :=
  match before with
  | some c => if c.target = target then c.start else t
  | none => t

theorem candidateStart_of_kept {before : Option Candidate} {target : StateValue} (t : Time)
    (h : before.map Candidate.target = some target) :
    before = some ⟨target, candidateStart before target t⟩ := by
  cases before with
  | none => cases h
  | some c =>
    obtain ⟨own, start⟩ := c
    cases Option.some.inj h
    simp [candidateStart]

theorem candidateStart_of_new {before : Option Candidate} {target : StateValue} (t : Time)
    (h : before.map Candidate.target ≠ some target) : candidateStart before target t = t := by
  cases before with
  | none => rfl
  | some c => exact if_neg fun same => h (congrArg some same)

theorem nextCandidate_of_ne {evaluated : PointState} {target : StateValue}
    (h : evaluated ≠ .known target) (before : Option Candidate) (t : Time) :
    nextCandidate evaluated before target t = some ⟨target, candidateStart before target t⟩ := by
  unfold nextCandidate
  rw [if_neg h]
  cases before with
  | none => rfl
  | some c =>
    obtain ⟨own, start⟩ := c
    by_cases same : own = target
    · subst same; simp [candidateStart]
    · simp [candidateStart, same]

/-! ### SINGLE points (R25) -/

section Single

variable (e : PointEntry) (r : PointRecord) (t : Time)

theorem PointRecord.singleUpdate_of_shown {target : StateValue} (h : r.evaluated = .known target) :
    r.singleUpdate target t = { r with candidate := none } := by
  unfold PointRecord.singleUpdate nextCandidate
  rw [if_pos h]

theorem PointRecord.singleUpdate_of_new {target : StateValue} (h : r.evaluated ≠ .known target) :
    r.singleUpdate target t =
      { r with candidate := some ⟨target, candidateStart r.candidate target t⟩ } := by
  rw [PointRecord.singleUpdate, nextCandidate_of_ne h]

theorem PointEntry.evalSingle_eq (level : Bool) : e.evalSingle r level t =
    if r.evaluated = .known (e.singleTarget level).1 then { r with candidate := none }
    else if (e.singleTarget level).2 ≤
        interval (candidateStart r.candidate (e.singleTarget level).1 t) t then
      { r with evaluated := .known (e.singleTarget level).1, candidate := none }
    else r.singleUpdate (e.singleTarget level).1 t := by
  unfold PointEntry.evalSingle
  by_cases shown : r.evaluated = .known (e.singleTarget level).1
  · simp only [r.singleUpdate_of_shown t shown, if_pos shown]
  · simp only [r.singleUpdate_of_new t shown, if_neg shown, ripe_iff]

end Single

/-- Settles O43: `PointEntry.evalSingle_eq` at either level. -/
theorem singleCandidateIsFilteredThenAccepted : Obligations.SingleCandidateIsFilteredThenAccepted := by
  intro e r level t target filter start
  have named : e.singleTarget level = (target, filter) := by cases level <;> rfl
  have began : candidateStart r.candidate target t = start := rfl
  rw [PointEntry.evalSingle_eq, named, began]
  by_cases shown : r.evaluated = .known target
  · rw [if_pos shown, if_pos shown]
  · rw [if_neg shown, if_neg shown, PointRecord.singleUpdate_of_new r t shown, began]

/-! ### PAIR points (R26 to R33) -/

section Pair

variable (e : PointEntry) (r : PointRecord) (t : Time)

theorem PointRecord.pairUpdate_of_shown {target : StateValue} (h : r.evaluated = .known target) :
    r.pairUpdate target t = { r with candidate := none, openSince := none, pendingTransfer := none } :=
  if_pos h

theorem PointRecord.pairUpdate_of_new {target : StateValue} (h : r.evaluated ≠ .known target) :
    r.pairUpdate target t =
      if r.candidate.map Candidate.target = some target then r
      else { r with
        candidate := some ⟨target, t⟩
        openSince := newOpenSince r.evaluated target t
        pendingTransfer := newPending r.evaluated target r.openSince t } :=
  if_neg h

theorem PointRecord.candidate_pairUpdate {target : StateValue} (h : r.evaluated ≠ .known target) :
    (r.pairUpdate target t).candidate = some ⟨target, candidateStart r.candidate target t⟩ := by
  rw [r.pairUpdate_of_new t h]
  by_cases kept : r.candidate.map Candidate.target = some target
  · rw [if_pos kept]; exact candidateStart_of_kept t kept
  · rw [if_neg kept, candidateStart_of_new t kept]

theorem PointEntry.evalPair_eq (front back : Bool) : e.evalPair r front back t =
    let target := (e.pairTarget front back).1
    if r.evaluated = .known target then
      ({ r with candidate := none, openSince := none, pendingTransfer := none }, none)
    else if (e.pairTarget front back).2 ≤ interval (candidateStart r.candidate target t) t then
      (e.pairAccept (r.pairUpdate target t) target, (r.pairUpdate target t).pendingTransfer.map fun x =>
        (x, (e.pairAccept (r.pairUpdate target t) target).slowTransfer))
    else (r.pairUpdate target t, none) := by
  unfold PointEntry.evalPair
  by_cases shown : r.evaluated = .known (e.pairTarget front back).1
  · simp only [r.pairUpdate_of_shown t shown, if_pos shown]
  · simp only [r.candidate_pairUpdate t shown, if_neg shown, ripe_iff]

end Pair

/-- Settles O44: `PointEntry.evalPair_eq` at each combination of the levels. -/
theorem pairTransferIsMeasuredFromTheOpenRun : Obligations.PairTransferIsMeasuredFromTheOpenRun := by
  intro e r front back t target filter moved opposite run kept start u
  have named : e.pairTarget front back = (target, filter) := by cases front <;> cases back <;> rfl
  have began : candidateStart r.candidate target t = start := rfl
  have pending : newPending r.evaluated target r.openSince t = if opposite then some run else none := by
    unfold newPending
    cases ho : r.openSince <;> simp only [run, ho] <;> rfl
  rw [PointEntry.evalPair_eq, named]
  dsimp only
  rw [began]
  by_cases shown : r.evaluated = .known target
  · rw [if_pos shown, if_pos shown]
  · have updated : r.pairUpdate target t = u := by
      rw [PointRecord.pairUpdate_of_new r t shown, pending]
      rfl
    rw [if_neg shown, if_neg shown, updated]
    by_cases accepted : filter ≤ interval start t
    · rw [if_pos accepted, if_pos accepted]
      cases hx : u.pendingTransfer with
      | none => simp [PointEntry.pairAccept, hx]
      | some x => simp [PointEntry.pairAccept, hx]
    · rw [if_neg accepted, if_neg accepted]

/-! ### FLASHER points (R37 to R45) -/

section Flasher

variable (e : PointEntry) (r : PointRecord) (level : Bool) (t : Time)

/-- The start of the level candidate that a sample leaves (R38). -/
def levelStart (before : Option LevelCandidate) (level : Bool) (t : Time) : Time :=
  match before with
  | some c => if c.level = level then c.start else t
  | none => t

theorem nextLevelCandidate_of_ne {filtered : Option Bool} {level : Bool} (h : filtered ≠ some level)
    (before : Option LevelCandidate) (t : Time) :
    nextLevelCandidate filtered before level t = some ⟨level, levelStart before level t⟩ := by
  unfold nextLevelCandidate
  rw [if_neg h]
  cases before with
  | none => rfl
  | some c =>
    obtain ⟨own, start⟩ := c
    by_cases same : own = level
    · subst same; simp [levelStart]
    · simp [levelStart, same]

/-- The flash filter, step 1 of R37. -/
theorem PointEntry.flashFilterStep_eq : e.flashFilterStep r level t =
    if r.filteredLevel = some level then ({ r with levelCandidate := none }, false)
    else if e.flashFilter ≤ interval (levelStart r.levelCandidate level t) t then
      ({ r with filteredLevel := some level, levelCandidate := none }, true)
    else ({ r with levelCandidate := some ⟨level, levelStart r.levelCandidate level t⟩ }, false) := by
  unfold PointEntry.flashFilterStep
  by_cases shown : r.filteredLevel = some level
  · simp only [nextLevelCandidate, if_pos shown]
  · simp only [nextLevelCandidate_of_ne shown, if_neg shown, ripe_iff]

theorem PointEntry.quietCheck_of_untimed (h : r.lastEdge = none ∨ r.filteredLevel = none) :
    e.quietCheck r t = r := by
  unfold PointEntry.quietCheck
  rcases h with h | h
  · rw [h]
  · rw [h]; cases r.lastEdge <;> rfl

theorem PointEntry.quietCheck_of_timed {edge : Time} (he : r.lastEdge = some edge)
    (hl : r.filteredLevel = some level) : e.quietCheck r t =
      if e.halfMax < interval edge t then
        { r with evaluated := .known (steady level), integration := 0, lastEdge := none }
      else r := by
  rw [PointEntry.quietCheck, he, hl]

theorem PointRecord.storeHalf_evaluated (h : Nat) : (r.storeHalf level h).evaluated = r.evaluated := by
  cases level <;> rfl

theorem PointRecord.storeHalf_integration (h : Nat) :
    (r.storeHalf level h).integration = r.integration := by
  cases level <;> rfl

end Flasher

/-- Settles O45: the flash filter, the quiet check and the classification of a half, case by case. -/
theorem flasherHalvesAndQuietCheck : Obligations.FlasherHalvesAndQuietCheck := by
  intro e r level t edge h
  refine ⟨?_, e.quietCheck_of_untimed r t, fun timed filtered => ⟨fun quiet => ?_, fun early => ?_⟩, ?_⟩
  · intro start
    have began : levelStart r.levelCandidate level t = start := rfl
    unfold PointEntry.evalFlasher
    rw [PointEntry.flashFilterStep_eq, began]
    by_cases shown : r.filteredLevel = some level
    · simp only [if_pos shown, Bool.false_eq_true, if_false]
    · by_cases accepted : e.flashFilter ≤ interval start t
      · simp only [if_neg shown, if_pos accepted, if_true]
        rfl
      · simp only [if_neg shown, if_neg accepted, Bool.false_eq_true, if_false]
  · rw [e.quietCheck_of_timed r level t timed filtered, if_pos quiet]; rfl
  · rw [e.quietCheck_of_timed r level t timed filtered, if_neg (Nat.not_lt.2 early)]
  · have stored : (if level then { r with lastOnHalf := some h } else { r with lastOffHalf := some h }) =
        r.storeHalf level h := rfl
    rw [stored]
    unfold PointEntry.classifyHalf
    dsimp only
    rw [PointRecord.storeHalf_evaluated, PointRecord.storeHalf_integration]
    refine ⟨fun long => by rw [if_pos long]; rfl, fun short bounded => ?_, fun reached bounded => ?_⟩
    · rw [if_neg (Nat.not_lt.2 bounded), if_pos short]
    · rw [if_neg (Nat.not_lt.2 bounded), if_neg (Nat.not_lt.2 reached)]

/-! ### Period and duty (R47) -/

/-- The duty of a period that is not 0 (R47). -/
theorem dutyOf_eq {x y : Nat} (h : 0 < x + y) : dutyOf x y = min (100 * x / periodOf x y) 100 := by
  have positive : periodOf x y ≠ 0 := by unfold periodOf Config.measureLimit; omega
  rw [dutyOf, if_neg positive]

/-- The whole percentage of `x` in `p`, rounded down, where `x` does not exceed `p`. -/
theorem percentage_bounds {x p : Nat} (positive : 0 < p) (h : x ≤ p) :
    min (100 * x / p) 100 * p ≤ 100 * x ∧ 100 * x < (min (100 * x / p) 100 + 1) * p := by
  have limited : 100 * x / p ≤ 100 := Nat.div_le_of_le_mul (by rw [mul_comm p]; omega)
  rw [min_eq_left limited]
  exact ⟨Nat.div_mul_le_self _ _, (mul_comm p _) ▸ Nat.lt_mul_div_succ _ positive⟩

/-- Settles O46: the duty is the rounded percentage of the saturated period. -/
theorem periodAndDutyStayInRange : Obligations.PeriodAndDutyStayInRange := by
  intro x y
  refine ⟨rfl, ?_, fun positive whole => ?_, fun beyond below => ?_, fun full => ?_, by decide, by decide,
    by decide⟩
  · unfold dutyOf
    split
    · exact min_le_right _ _
    · exact min_le_right _ _
  · have period : periodOf x y = x + y := min_eq_left whole
    rw [dutyOf_eq positive, period]
    exact percentage_bounds positive (Nat.le_add_right x y)
  · have period : periodOf x y = 65535 := min_eq_right (Nat.le_of_lt beyond)
    rw [dutyOf_eq (by omega), period]
    exact percentage_bounds (by decide) (Nat.le_of_lt below)
  · have period : periodOf x y = 65535 := min_eq_right (by unfold Config.measureLimit; omega)
    rw [dutyOf_eq (by omega), period]
    exact min_eq_right ((Nat.le_div_iff_mul_le (by decide)).2 (by omega))

end Sys2Proof.Machine

/-! PROOFS. Groups: the numbers that a canonical table lists, which groups a hand-over evaluates (R57, R58), and the
evaluation of one group (R59 to R62). -/

namespace Sys2Proof.Machine

/-! ### Listing a canonical table -/

/-- The listed numbers of a canonical table that satisfy a condition which the empty entry does not are
all that satisfy it, in ascending order (log entry 18). -/
theorem keysWhere_eq_filter {n : Nat} {α : Type} [DecidableEq α] {d : α} {p : α → Bool}
    (hd : p d = false) {t : Table n α} (h : Table.wf d t = true) :
    Table.keysWhere d t p = (List.finRange n).filter fun i => p (Table.get d t i) := by
  have ascending := ((Table.wf_iff d t).1 h).1
  refine List.Pairwise.eq_of_mem_iff (r := (· < ·)) (ascending.sublist List.filter_sublist)
    ((List.pairwise_lt_finRange n).sublist List.filter_sublist) fun i => ?_
  rw [Table.mem_keysWhere hd, List.mem_filter]
  simp [List.mem_finRange]

theorem State.groupsWhere_eq_filter {s : State} (h : s.Canonical) (p : GroupEntry → Bool) :
    s.groupsWhere p = (List.finRange 128).filter fun g =>
      decide ((s.ts.active.groupEntry g).memberCount ≠ 0) && p (s.ts.active.groupEntry g) := by
  obtain ⟨-, -, groups, -, -⟩ := h.active
  exact keysWhere_eq_filter (p := fun e => e.isDefined && p e) rfl groups

/-! ### Hand-overs (R57, R58) -/

section HandOvers

variable (s : State)

theorem State.evaluateGroup_age (arrival : Bool) (t : Time) (g : GroupNo) :
    (s.evaluateGroup arrival t g).age = s.age :=
  (s.evaluateGroup_frame arrival t g).blocks .age (by decide)

theorem State.foldl_workHandOver_age (l : List HandOver) :
    (l.foldl State.workHandOver s).age = s.age := by
  induction l generalizing s with
  | nil => rfl
  | cons h l ih => exact (ih _).trans ((s.workHandOver_frame h).blocks .age (by decide))

theorem GroupEntry.hasMemberIn_eq (e : GroupEntry) (set : List PointNo) :
    e.hasMemberIn set = e.memberList.any fun p => decide (p ∈ set) := by
  simp [GroupEntry.hasMemberIn]

end HandOvers

/-- Settles O49: each hand-over lists its groups, and an AGE in step works it off at once. -/
theorem handOversEvaluateTheirGroups : Obligations.HandOversEvaluateTheirGroups := by
  intro s t entry defined clear inSet
  refine ⟨fun canonical inStep => ⟨fun m => ?_, fun set => ?_, fun set => ?_⟩, fun g arrival => rfl,
    fun h pace slow => s.handOver_deferred slow h, fun h g groups rest waiting next => ?_, ?_⟩
  · rw [State.ageArrival, inStep.handOver_eq, State.groupsWhere_eq_filter canonical]
    rfl
  · rw [State.ageChange, inStep.handOver_eq, State.groupsWhere_eq_filter canonical]
    simp only [GroupEntry.hasMemberIn_eq]
    rfl
  · rw [State.ageNotice, inStep.handOver_eq, State.groupsWhere_eq_filter canonical,
      State.groupsWhere_eq_filter canonical]
    simp only [GroupEntry.hasMemberIn_eq, inSet, List.not_any_eq_all_not, ← Bool.and_assoc]
    rfl
  · simp only [State.ageTurn, waiting, next, State.setHandOvers]
    rw [State.evaluateGroup_age]
  · rw [State.ageFinish, State.setHandOvers, State.foldl_workHandOver_age]
    rfl

/-! ### The evaluation of one group (R59 to R62) -/

section Judge

variable {t : Tables} {e : GroupEntry} {r : GroupRecord} {states : List PointState} {arrival : Bool}
  {now : Time}

theorem firstUnknown_of_unknown {before after : List PointState} {cause : Cause}
    (h : ∀ x, x ∈ before → ∃ v, x = .known v) :
    firstUnknown (before ++ .unknown cause :: after) = some cause := by
  induction before with
  | nil => rfl
  | cons x before ih =>
    obtain ⟨v, rfl⟩ := h x (List.mem_cons_self ..)
    exact ih fun y hy => h y (List.mem_cons_of_mem _ hy)

theorem firstUnknown_of_known (h : ∀ x, x ∈ states → ∃ v, x = .known v) : firstUnknown states = none := by
  rw [firstUnknown, List.findSome?_eq_none_iff]
  intro x hx
  obtain ⟨v, rfl⟩ := h x hx
  rfl

/-- The indexes of a group's range, as a filter of all pattern numbers (R54). -/
theorem GroupEntry.patternRange_eq_filter (e : GroupEntry) :
    e.patternRange = (List.finRange 512).filter fun i =>
      e.firstPattern.val ≤ i.val && i.val < e.firstPattern.val + e.patternCount := by
  refine List.Pairwise.eq_of_mem_iff (r := (· < ·)) e.patternRange_pairwise
    ((List.pairwise_lt_finRange 512).sublist List.filter_sublist) fun i => ?_
  rw [GroupEntry.mem_patternRange, List.mem_filter]
  simp [List.mem_finRange]

/-- A pattern matches where its required state at every member's position admits the state (R60). -/
theorem PatternEntry.matchesStates_iff (e : PatternEntry) (states : List PointState) :
    e.matchesStates states = true ↔ ∀ (k : Nat) (_ : k < 6) (state : PointState),
      states[k]? = some state →
        e.required[k] = none ∨ ∃ v, e.required[k] = some v ∧ state = .known v := by
  simp only [PatternEntry.matchesStates, List.all_eq_true, Prod.forall, admits_iff,
    List.mem_iff_getElem?, List.getElem?_zip_eq_some, forall_exists_index, and_imp]
  refine ⟨fun h k hk state hs => h _ state k ?_ hs, fun h required state k hr hs => ?_⟩
  · simp [hk]
  · obtain ⟨hk, rfl⟩ := List.getElem?_eq_some_iff.1 hr
    exact h k (by simpa using hk) state hs

theorem Tables.firstMatch_of_match {before after : List PatternNo} {i : PatternNo}
    (range : e.patternRange = before ++ i :: after)
    (none_ : ∀ k, k ∈ before → (t.patternEntry k).matchesStates states = false)
    (here : (t.patternEntry i).matchesStates states = true) :
    t.firstMatch e states = some (t.patternEntry i).aspect := by
  have earlier : before.findSome? (fun i => let pattern := t.patternEntry i
      if pattern.matchesStates states then some pattern.aspect else none) = none :=
    List.findSome?_eq_none_iff.2 fun k hk => if_neg (by rw [none_ k hk]; decide)
  rw [Tables.firstMatch, range, List.findSome?_append, earlier, Option.none_or, List.findSome?_cons]
  simp only [here, if_true]

theorem Tables.firstMatch_of_noMatch
    (none_ : ∀ k, k ∈ e.patternRange → (t.patternEntry k).matchesStates states = false) :
    t.firstMatch e states = none :=
  List.findSome?_eq_none_iff.2 fun k hk => if_neg (by rw [none_ k hk]; decide)

theorem Tables.judgeGroup_of_noMatch (known : firstUnknown states = none)
    (unmatched : t.firstMatch e states = none) : t.judgeGroup e r states arrival now =
      if arrival then r.settleAt now e.settleTime else r := by
  simp only [Tables.judgeGroup, known, unmatched]

end Judge

/-- Settles O50: the first UNKNOWN member, else the first match in the range, else the settle rule. -/
theorem groupTakesUnknownMatchOrSettles : Obligations.GroupTakesUnknownMatchOrSettles := by
  intro t e r states arrival now range fits
  have spelled : e.patternRange = range := e.patternRange_eq_filter
  have matched (i : PatternNo) : (t.patternEntry i).matchesStates states = true ↔ fits i :=
    (t.patternEntry i).matchesStates_iff states
  have unmatched (i : PatternNo) (h : ¬ fits i) : (t.patternEntry i).matchesStates states = false :=
    Bool.eq_false_iff.2 (mt (matched i).1 h)
  refine ⟨rfl, ?_, fun known => ⟨fun before i after whole none_ here => ?_, fun none_ => ?_⟩⟩
  · rintro before cause after rfl known
    simp only [Tables.judgeGroup, firstUnknown_of_unknown known]
  · have first := Tables.firstMatch_of_match (t := t) (spelled.trans whole)
      (fun k hk => unmatched k (none_ k hk)) ((matched i).2 here)
    simp only [Tables.judgeGroup, firstUnknown_of_known known, first]
  · have judged := Tables.judgeGroup_of_noMatch (r := r) (arrival := arrival) (now := now)
      (firstUnknown_of_known known)
      (Tables.firstMatch_of_noMatch (t := t) (e := e) fun k hk => unmatched k (none_ k (spelled ▸ hk)))
    rw [judged]
    refine ⟨?_, ?_⟩
    · rintro rfl
      rfl
    · rintro rfl
      refine ⟨fun start hs => ?_, fun hs => ?_⟩
      · simp [GroupRecord.settleAt, hs]
      · simp [GroupRecord.settleAt, hs, interval_self]

end Sys2Proof.Machine

/-! PROOFS. Image arrivals: the evaluation of one point with what it hands on (R3, R9, R10), and the points of the
arriving module (R9, R11). -/

namespace Sys2Proof.Machine

/-! ### Evaluation without acceptance (R35, log entry 29) -/

/-- A filter that no interval reaches accepts nothing: only the candidate is updated. -/
theorem PointEntry.evalSingle_of_unreached (e : PointEntry) (r : PointRecord) (level : Bool) (t : Time)
    (h : 2 ^ 32 ≤ (e.singleTarget level).2) :
    e.evalSingle r level t = r.singleUpdate (e.singleTarget level).1 t := by
  have unreached (start : Time) : ¬ (e.singleTarget level).2 ≤ interval start t := by
    have := (t - start).isLt
    unfold interval
    omega
  rw [PointEntry.evalSingle_eq, if_neg (unreached _)]
  by_cases shown : r.evaluated = .known (e.singleTarget level).1
  · rw [if_pos shown, PointRecord.singleUpdate_of_shown r t shown]
  · rw [if_neg shown]

theorem PointEntry.evalPair_of_unreached (e : PointEntry) (r : PointRecord) (front back : Bool) (t : Time)
    (h : 2 ^ 32 ≤ (e.pairTarget front back).2) :
    e.evalPair r front back t = (r.pairUpdate (e.pairTarget front back).1 t, none) := by
  have unreached (start : Time) : ¬ (e.pairTarget front back).2 ≤ interval start t := by
    have := (t - start).isLt
    unfold interval
    omega
  rw [PointEntry.evalPair_eq]
  dsimp only
  rw [if_neg (unreached _)]
  by_cases shown : r.evaluated = .known (e.pairTarget front back).1
  · rw [if_pos shown, PointRecord.pairUpdate_of_shown r t shown]
  · rw [if_neg shown]

/-- An entry with filters that no interval reaches. -/
def PointEntry.unreached (e : PointEntry) : PointEntry :=
  { e with
    pickFilter := 2 ^ 32, dropFilter := 2 ^ 32, transitLimit := 2 ^ 32, faultFilter := 2 ^ 32 }

theorem PointEntry.singleTarget_unreached (e : PointEntry) (level : Bool) :
    e.unreached.singleTarget level = ((e.singleTarget level).1, 2 ^ 32) := by
  cases level <;> rfl

theorem PointEntry.pairTarget_unreached (e : PointEntry) (front back : Bool) :
    e.unreached.pairTarget front back = ((e.pairTarget front back).1, 2 ^ 32) := by
  cases front <;> cases back <;> rfl

/-! ### The evaluation at an arriving image (R9) -/

section Evaluate

variable {s : State} {arr : BankImage} {e : PointEntry} {before : PointRecord}

/-- The entry by whose filters a SINGLE or PAIR point is judged at an arriving image (R35). -/
def State.judgedBy (s : State) (arr : BankImage) (e : PointEntry) : PointEntry :=
  if (s.moduleRec arr.mod).state = .suspect then e.unreached else e

theorem State.rawLevel_eq_some {c : Contact} {x : Bool}
    (h : (c.mod = arr.mod ∧ x = arr.levels.getLsbD c.contact) ∨
      (c.mod ≠ arr.mod ∧ ∃ image, (s.moduleRec c.mod).image = some image ∧
        x = image.levels.getLsbD c.contact)) : s.rawLevel arr c = some x := by
  rcases h with ⟨here, rfl⟩ | ⟨elsewhere, image, himage, rfl⟩
  · rw [State.rawLevel, if_pos here]
  · rw [State.rawLevel, if_neg elsewhere, himage]; rfl

theorem State.rawLevel_ne_none {c : Contact}
    (h : c.mod = arr.mod ∨ (s.moduleRec c.mod).image ≠ none) : s.rawLevel arr c ≠ none := by
  unfold State.rawLevel
  split
  · exact Option.some_ne_none _
  · next elsewhere => simpa using h.resolve_left elsewhere

theorem State.evaluate_single (cls : e.cls = .single) {a : Bool} (ha : s.rawLevel arr e.a = some a) :
    s.evaluate arr e before = some
      ⟨(s.judgedBy arr e).evalSingle before.atSample (e.a.level a) arr.time, .none, ⟨a, none⟩⟩ := by
  simp only [State.evaluate, cls, ha, State.mayAccept, State.judgedBy]
  by_cases suspect : (s.moduleRec arr.mod).state = .suspect
  · have kept := e.unreached.evalSingle_of_unreached before.atSample (e.a.level a) arr.time
      (by rw [PointEntry.singleTarget_unreached])
    rw [PointEntry.singleTarget_unreached] at kept
    simp [suspect, kept]
  · simp [suspect]

theorem State.evaluate_flasher (cls : e.cls = .flasher) {a : Bool} (ha : s.rawLevel arr e.a = some a) :
    s.evaluate arr e before = some
      ⟨e.evalFlasher before.atSample (e.a.level a) arr.time,
        (e.evalFlasher before.atSample (e.a.level a) arr.time).periodExtra, ⟨a, none⟩⟩ := by
  simp only [State.evaluate, cls, ha]

/-- The optional fields of a PAIR point's record: the transfer that an acceptance stored (R32). -/
def transferExtra : Option (Nat × Bool) → PointExtra
  | some (x, slow) => .transfer x slow
  | none => .none

theorem State.evaluate_pair (cls : e.cls = .pair) {a b : Bool} (ha : s.rawLevel arr e.a = some a)
    (hb : s.rawLevel arr e.b = some b) : s.evaluate arr e before =
      let found := (s.judgedBy arr e).evalPair before.atSample (e.a.level a) (e.b.level b) arr.time
      some ⟨found.1, transferExtra found.2, ⟨a, some b⟩⟩ := by
  simp only [State.evaluate, cls, ha, hb, State.mayAccept, State.judgedBy]
  by_cases suspect : (s.moduleRec arr.mod).state = .suspect
  · have kept := e.unreached.evalPair_of_unreached before.atSample (e.a.level a) (e.b.level b) arr.time
      (by rw [PointEntry.pairTarget_unreached])
    rw [PointEntry.pairTarget_unreached] at kept
    simp [suspect, kept, transferExtra]
  · simp only [suspect, ne_eq, not_false_eq_true, decide_true, if_true, if_false]
    rfl

theorem PointRecord.periodExtra_eq (r : PointRecord) : r.periodExtra =
    match r.substitute, r.evaluated, r.lastOnHalf, r.lastOffHalf with
    | none, .known .flashing, some x, some y => .period (periodOf x y) (dutyOf x y)
    | _, _, _, _ => .none := by
  unfold PointRecord.periodExtra
  cases r.substitute with
  | some v => rfl
  | none =>
    cases r.evaluated with
    | unknown c => rfl
    | known v => cases v <;> cases r.lastOnHalf <;> cases r.lastOffHalf <;> rfl

end Evaluate

/-! ### Handing on (R10) -/

section HandOn

variable (s : State) (p : PointNo) (new : PointRecord) (t : Time) (x : PointExtra)

/-- Handing on leaves the trace as it is (R10). -/
theorem State.handOn_trace : (s.handOn p new t x).pe.tracedPoint = s.pe.tracedPoint ∧
    (s.handOn p new t x).pe.lastOffered = s.pe.lastOffered := by
  have handed : ((s.setPointRec p new).handPoint p (s.pointRec p) new t x).pe =
      (s.setPointRec p new).pe :=
    (State.handPoint_frame _ _ _ _ _ _).blocks .pe (by decide)
  have pe : (s.handOn p new t x).pe = (s.setPointRec p new).pe := by
    unfold State.handOn
    dsimp only
    split
    · exact ((State.csuNotice_frame _ _ _).blocks .pe (by decide)).trans handed
    · exact handed
  rw [pe]
  exact ⟨rfl, rfl⟩

theorem State.traceSample_tracedPoint (l : TraceLevels) :
    (s.traceSample p l t).pe.tracedPoint = s.pe.tracedPoint := by
  unfold State.traceSample
  split
  · show (s.handTrace t p l).pe.tracedPoint = s.pe.tracedPoint
    exact congrArg PointEvaluator.tracedPoint ((s.handTrace_frame t p l).blocks .pe (by decide))
  · rfl

/-- The arrival of one deliverable point that forms a sample (R9, R10). -/
theorem State.arriveAt_of_sample {arr : BankImage} (h : s.pointDeliverable (s.ts.active.pointEntry p) = true)
    {v : Evaluation} (hv : s.evaluate arr (s.ts.active.pointEntry p) (s.pointRec p) = some v) :
    s.arriveAt arr p = (s.handOn p v.record arr.time v.extra).traceSample p v.raw arr.time := by
  simp only [State.arriveAt, h, if_true, hv]

theorem State.arriveAt_of_noSample {arr : BankImage}
    (h : s.pointDeliverable (s.ts.active.pointEntry p) = true)
    (hv : s.evaluate arr (s.ts.active.pointEntry p) (s.pointRec p) = none) : s.arriveAt arr p = s := by
  simp only [State.arriveAt, h, if_true, hv]

theorem State.arriveAt_of_undeliverable {arr : BankImage}
    (h : s.pointDeliverable (s.ts.active.pointEntry p) = false) :
    s.arriveAt arr p = s.losePoint p arr.time := by
  simp only [State.arriveAt, h, Bool.false_eq_true, if_false]

end HandOn

/-- Settles O47: the sample's evaluation by class, and what `State.handOn` and `State.traceSample` do. -/
theorem arrivalEvaluatesAndHandsOnOnePoint : Obligations.ArrivalEvaluatesAndHandsOnOnePoint := by
  intro s arr p e old start raw handedOn judged
  have began : old.atSample = start := rfl
  have entry : s.judgedBy arr e = judged := rfl
  have handed (new : PointRecord) (extra : PointExtra) (levels : TraceLevels) :
      (s.handOn p new arr.time extra).traceSample p levels arr.time = handedOn new extra levels := by
    obtain ⟨traced, offered⟩ := s.handOn_trace p new arr.time extra
    unfold State.traceSample
    rw [traced, offered]
    rfl
  refine ⟨fun deliverable => ⟨fun a cls ha => ?_, fun a cls ha => ?_, fun a b cls ha hb => ?_⟩,
    s.arriveAt_of_undeliverable p, ?_⟩
  · have found := State.evaluate_single (before := old) cls (State.rawLevel_eq_some ha)
    rw [s.arriveAt_of_sample p deliverable found, began, entry]
    exact handed _ _ _
  · have found := State.evaluate_flasher (before := old) cls (State.rawLevel_eq_some ha)
    rw [s.arriveAt_of_sample p deliverable found, began, PointRecord.periodExtra_eq]
    exact handed _ _ _
  · have found := State.evaluate_pair (before := old) cls (State.rawLevel_eq_some ha)
      (State.rawLevel_eq_some hb)
    rw [s.arriveAt_of_sample p deliverable found, began, entry]
    exact handed _ _ _
  · simp only [State.pointDeliverable, List.all_eq_true, State.contactDeliverable, Bool.and_eq_true,
      Bool.not_eq_true', ModuleState.heard_iff]

/-! ### The points of the arriving module (R9, R11) -/

section Arrival

variable {s : State} {arr : BankImage}

/-- What an arrival leaves in a point's record (R6, R9). -/
def State.arrivedRec (s : State) (arr : BankImage) (p : PointNo) : PointRecord :=
  if s.pointDeliverable (s.ts.active.pointEntry p) then
    ((s.evaluate arr (s.ts.active.pointEntry p) (s.pointRec p)).map Evaluation.record).getD (s.pointRec p)
  else if (s.pointRec p).evaluated = .unknown (s.lossCause (s.ts.active.pointEntry p)) then
    (s.pointRec p).lostAgain
  else (s.pointRec p).loseTo (s.lossCause (s.ts.active.pointEntry p))

theorem State.pointRec_losePoint (s : State) (p : PointNo) (t : Time) :
    (s.losePoint p t).pointRec p =
      if (s.pointRec p).evaluated = .unknown (s.lossCause (s.ts.active.pointEntry p)) then
        (s.pointRec p).lostAgain
      else (s.pointRec p).loseTo (s.lossCause (s.ts.active.pointEntry p)) := by
  unfold State.losePoint
  dsimp only
  split
  · rw [State.pointRec_setPointRec, if_pos rfl]
  · rw [State.pointRec_handOn, if_pos rfl]

theorem State.pointRec_arriveAt (s : State) (arr : BankImage) (p : PointNo) :
    (s.arriveAt arr p).pointRec p = s.arrivedRec arr p := by
  unfold State.arrivedRec
  cases h : s.pointDeliverable (s.ts.active.pointEntry p) with
  | false =>
    rw [s.arriveAt_of_undeliverable p h, State.pointRec_losePoint]
    rfl
  | true =>
    cases hv : s.evaluate arr (s.ts.active.pointEntry p) (s.pointRec p) with
    | none => rw [s.arriveAt_of_noSample p h hv]; rfl
    | some v =>
      rw [s.arriveAt_of_sample p h hv, State.traceSample_pointRec, State.pointRec_handOn, if_pos rfl]
      rfl

theorem Frame.evaluate_eq {l : List Block} {s t : State} (h : Frame l s t) (hb : .slc ∉ l)
    (arr : BankImage) (e : PointEntry) (r : PointRecord) : t.evaluate arr e r = s.evaluate arr e r := by
  unfold State.evaluate State.rawLevel State.mayAccept
  simp only [h.moduleRec_eq hb]

theorem Frame.arrivedRec_eq {l : List Block} {s t : State} (h : Frame l s t) (hts : .ts ∉ l)
    (hslc : .slc ∉ l) (arr : BankImage) {p : PointNo} (hp : t.pointRec p = s.pointRec p) :
    t.arrivedRec arr p = s.arrivedRec arr p := by
  have entry : t.ts.active.pointEntry p = s.ts.active.pointEntry p :=
    congrArg (fun ts => TableStore.active ts |>.pointEntry p) (h.blocks .ts hts)
  unfold State.arrivedRec
  rw [entry, hp, h.pointDeliverable_eq hslc, h.evaluate_eq hslc, h.lossCause_eq hslc]

/-- Each point that is visited once takes its new record, and every other stays. -/
theorem State.pointRec_foldl_arriveAt (s : State) (arr : BankImage) (l : List PointNo) (distinct : l.Nodup)
    (p : PointNo) : (l.foldl (fun s p => s.arriveAt arr p) s).pointRec p =
      if p ∈ l then s.arrivedRec arr p else s.pointRec p := by
  induction l generalizing s with
  | nil => rfl
  | cons q l ih =>
    rw [List.nodup_cons] at distinct
    rw [List.foldl_cons, ih _ distinct.2]
    by_cases same : p = q
    · subst same
      rw [if_neg distinct.1, if_pos (List.mem_cons_self ..), State.pointRec_arriveAt]
    · have other := s.arriveAt_other arr same
      simp only [List.mem_cons, same, false_or, other,
        (s.arriveAt_frame arr q).arrivedRec_eq (by decide) (by decide) arr other]

theorem State.losePoint_tracedPoint (s : State) (p : PointNo) (t : Time) :
    (s.losePoint p t).pe.tracedPoint = s.pe.tracedPoint := by
  unfold State.losePoint
  dsimp only
  split
  · rfl
  · exact (s.handOn_trace _ _ _ _).1

theorem State.arriveAt_tracedPoint (s : State) (arr : BankImage) (p : PointNo) :
    (s.arriveAt arr p).pe.tracedPoint = s.pe.tracedPoint := by
  cases h : s.pointDeliverable (s.ts.active.pointEntry p) with
  | false => rw [s.arriveAt_of_undeliverable p h, State.losePoint_tracedPoint]
  | true =>
    cases hv : s.evaluate arr (s.ts.active.pointEntry p) (s.pointRec p) with
    | none => rw [s.arriveAt_of_noSample p h hv]
    | some v =>
      rw [s.arriveAt_of_sample p h hv, State.traceSample_tracedPoint, (s.handOn_trace _ _ _ _).1]

theorem State.foldl_arriveAt_tracedPoint (s : State) (arr : BankImage) (l : List PointNo) :
    (l.foldl (fun s p => s.arriveAt arr p) s).pe.tracedPoint = s.pe.tracedPoint := by
  induction l generalizing s with
  | nil => rfl
  | cons p l ih => exact (ih _).trans (s.arriveAt_tracedPoint arr p)

theorem PointRecord.atSample_evaluated (r : PointRecord) : r.atSample.evaluated = r.evaluated := by
  unfold PointRecord.atSample
  split <;> rfl

theorem PointRecord.pairUpdate_evaluated (r : PointRecord) (target : StateValue) (t : Time) :
    (r.pairUpdate target t).evaluated = r.evaluated := by
  unfold PointRecord.pairUpdate
  split
  · rfl
  · split <;> rfl

/-- A SINGLE or PAIR point keeps its evaluated state while the arriving module is SUSPECT (R35). -/
theorem State.evaluate_suspect {e : PointEntry} {r : PointRecord} {v : Evaluation}
    (suspect : (s.moduleRec arr.mod).state = .suspect) (cls : e.cls ≠ .flasher)
    (h : s.evaluate arr e r = some v) : v.record.evaluated = r.evaluated := by
  have barred : s.mayAccept arr = false := by simp [State.mayAccept, suspect]
  unfold State.evaluate at h
  cases hc : e.cls with
  | none => simp only [hc] at h; cases h
  | flasher => exact absurd hc cls
  | single =>
    cases ha : s.rawLevel arr e.a with
    | none => simp only [hc, ha] at h; cases h
    | some a =>
      simp only [hc, ha, barred] at h
      cases h
      exact r.atSample_evaluated
  | pair =>
    cases ha : s.rawLevel arr e.a with
    | none => simp only [hc, ha] at h; cases h
    | some a =>
      cases hb : s.rawLevel arr e.b with
      | none => simp only [hc, ha, hb] at h; cases h
      | some b =>
        simp only [hc, ha, hb, barred] at h
        cases h
        exact (PointRecord.pairUpdate_evaluated _ _ _).trans r.atSample_evaluated

/-- A point all of whose contacts have a level forms a sample (R3, log entry 14). -/
theorem State.evaluate_ne_none {e : PointEntry} (r : PointRecord) (uses : e.usesModule arr.mod = true)
    (levels : ∀ c, c ∈ e.contacts → c.mod = arr.mod ∨ (s.moduleRec c.mod).image ≠ none) :
    s.evaluate arr e r ≠ none := by
  have read (c : Contact) (hc : c ∈ e.contacts) : ∃ x, s.rawLevel arr c = some x :=
    Option.ne_none_iff_exists'.1 (State.rawLevel_ne_none (levels c hc))
  cases hc : e.cls with
  | none => simp [PointEntry.usesModule, PointEntry.contacts, hc] at uses
  | single =>
    obtain ⟨a, ha⟩ := read e.a (by simp [PointEntry.contacts, hc])
    rw [State.evaluate_single hc ha]
    exact Option.some_ne_none _
  | flasher =>
    obtain ⟨a, ha⟩ := read e.a (by simp [PointEntry.contacts, hc])
    rw [State.evaluate_flasher hc ha]
    exact Option.some_ne_none _
  | pair =>
    obtain ⟨a, ha⟩ := read e.a (by simp [PointEntry.contacts, hc])
    obtain ⟨b, hb⟩ := read e.b (by simp [PointEntry.contacts, hc])
    rw [State.evaluate_pair hc ha hb]
    exact Option.some_ne_none _

theorem State.pointsOn_eq_filter (canonical : s.Canonical) (m : ModuleNo) : s.pointsOn m =
    (List.finRange 1024).filter fun p => (s.ts.active.pointEntry p).usesModule m := by
  obtain ⟨-, points, -, -, -⟩ := canonical.active
  exact keysWhere_eq_filter (p := fun e => e.usesModule m) rfl points

/-- An arrival with its points spelled out (R9, R11). -/
theorem State.takeArrival_eq (canonical : s.Canonical) (rest : List BankImage) :
    s.takeArrival arr rest = State.ageArrival
      { ((List.finRange 1024).filter fun p => (s.ts.active.pointEntry p).usesModule arr.mod).foldl
          (fun s p => s.arriveAt arr p) s with slc := { s.slc with banks := rest } } arr.mod arr.time := by
  have slc : ((s.pointsOn arr.mod).foldl (fun s p => s.arriveAt arr p) s).slc = s.slc :=
    (Frame.foldl _ (fun s p => s.arriveAt_frame arr p) _ s).blocks .slc (by decide)
  unfold State.takeArrival
  dsimp only
  rw [slc, State.pointsOn_eq_filter canonical]

theorem State.takeArrival_slc (s : State) (arr : BankImage) (rest : List BankImage) :
    (s.takeArrival arr rest).slc = { s.slc with banks := rest } := by
  have slc : ((s.pointsOn arr.mod).foldl (fun s p => s.arriveAt arr p) s).slc = s.slc :=
    (Frame.foldl _ (fun s p => s.arriveAt_frame arr p) _ s).blocks .slc (by decide)
  unfold State.takeArrival
  rw [(State.ageArrival_frame _ _ _).blocks .slc (by decide), slc]

theorem State.takeArrival_tracedPoint (s : State) (arr : BankImage) (rest : List BankImage) :
    (s.takeArrival arr rest).pe.tracedPoint = s.pe.tracedPoint := by
  unfold State.takeArrival
  rw [(State.ageArrival_frame _ _ _).blocks .pe (by decide)]
  exact s.foldl_arriveAt_tracedPoint arr _

theorem State.pointRec_takeArrival (canonical : s.Canonical) (rest : List BankImage) (p : PointNo) :
    (s.takeArrival arr rest).pointRec p =
      if (s.ts.active.pointEntry p).usesModule arr.mod = true then s.arrivedRec arr p
      else s.pointRec p := by
  have distinct : (s.pointsOn arr.mod).Nodup := by
    rw [State.pointsOn_eq_filter canonical]
    exact (List.nodup_finRange 1024).filter _
  have visited := s.pointRec_foldl_arriveAt arr (s.pointsOn arr.mod) distinct p
  simp only [State.mem_pointsOn] at visited
  unfold State.takeArrival
  rw [(State.ageArrival_frame _ _ _).pointRec_eq (by decide)]
  exact visited

end Arrival

/-- Settles O48: the fold over the module's points, and what it leaves in each record. -/
theorem imageArrivalEvaluatesThePointsOfItsModule :
    Obligations.ImageArrivalEvaluatesThePointsOfItsModule := by
  intro s arr rest running canonical banks
  refine ⟨fun ⟨h, waiting, arrival⟩ => ?_, fun finished => ?_⟩
  · have unfinished : s.arrivalUnfinished = true := List.any_eq_true.2 ⟨h, waiting, arrival⟩
    have still : ¬ s.resetHeld = true := by rw [running]; decide
    simp [exec, execImageArrival, State.occur, still, banks, unfinished]
  intro points u w
  have taken : s.takeArrival arr rest = w := State.takeArrival_eq canonical rest
  clear_value w
  subst taken
  have finish : s.arrivalUnfinished = false := by
    simpa [State.arrivalUnfinished] using finished
  have records := State.pointRec_takeArrival (arr := arr) canonical rest
  refine ⟨?_, s.takeArrival_slc arr rest, fun p => ?_, s.takeArrival_tracedPoint arr rest,
    s.takeArrival_frame arr rest⟩
  · simp only [exec, execImageArrival]
    exact State.occur_eq running (by simp [banks, finish])
  · intro e
    refine ⟨fun uses => ?_, fun uses deliverable suspect cls => ?_, fun uses deliverable => ?_,
      fun uses lost => ?_⟩
    · rw [records, if_neg (by rw [uses]; decide)]
    · rw [records, if_pos uses, State.arrivedRec, if_pos deliverable]
      cases hv : s.evaluate arr (s.ts.active.pointEntry p) (s.pointRec p) with
      | none => rfl
      | some v => exact State.evaluate_suspect suspect cls hv
    · have taken : (s.takeArrival arr rest).pointRec p =
          ((s.evaluate arr e (s.pointRec p)).map Evaluation.record).getD (s.pointRec p) := by
        rw [records, if_pos uses, State.arrivedRec, if_pos deliverable]
      exact ⟨fun v hv => by rw [taken, hv]; rfl, fun hv => by rw [taken, hv]; rfl,
        fun levels => State.evaluate_ne_none _ uses levels⟩
    · rw [records, if_pos uses, State.arrivedRec, if_neg (by rw [lost]; decide)]

end Sys2Proof.Machine

/-! PROOFS. Dispatch (R137, R138, R170), the key input (R158), TABLE_COMMIT and the swap at a held start (R154, R72),
and SUBSTITUTE and RELEASE (R15, R16). -/

namespace Sys2Proof.Machine

/-- An event that cannot take place leaves everything (log entry 2). -/
theorem State.occur_idle {s : State} {event : State → Option State} (h : event s = none) :
    s.occur event = .next s := by
  unfold State.occur
  rw [h, ite_self]

/-! ### The three checks of a dispatch (R137) -/

/-- A TABLE_WRITE's entries fill 1 to 8 places of a size (R170). -/
theorem wholeEntries_iff {size length : Nat} (positive : 0 < size) :
    (3 ≤ length ∧ (length - 3) % size = 0 ∧ 1 ≤ (length - 3) / size ∧ (length - 3) / size ≤ 8) ↔
      ∃ n, 1 ≤ n ∧ n ≤ 8 ∧ length = 3 + n * size := by
  constructor
  · rintro ⟨long, whole, least, most⟩
    have exact_ := Nat.div_add_mod (length - 3) size
    rw [whole, mul_comm] at exact_
    exact ⟨(length - 3) / size, least, most, by omega⟩
  · rintro ⟨n, least, most, rfl⟩
    have rest : 3 + n * size - 3 = n * size := by omega
    rw [rest, Nat.mul_mod_left, Nat.mul_div_cancel _ positive]
    exact ⟨by omega, rfl, least, most⟩

theorem tableWriteLength_named {body : List Byte} {t : TableId} (h : TableId.ofCode (num8 body 0) = some t) :
    tableWriteLength body = true ↔ ∃ n, 1 ≤ n ∧ n ≤ 8 ∧ body.length = 3 + n * t.entrySize := by
  have positive : 0 < t.entrySize := by cases t <;> decide
  rw [← wholeEntries_iff positive, tableWriteLength, h]
  simp only [Bool.and_eq_true, decide_eq_true_eq, and_assoc]

theorem tableWriteLength_unnamed {body : List Byte} (h : TableId.ofCode (num8 body 0) = none) :
    tableWriteLength body = true ↔ 3 ≤ body.length ∧ body.length ≤ 256 := by
  rw [tableWriteLength, h]
  simp only [Bool.and_eq_true, decide_eq_true_eq]

/-- The sizes of R170 by the code of the table. -/
theorem entrySizes_eq (n : Nat) :
    ([3, 30, 21, 8, 15, 18] : List Nat)[n]? = (TableId.ofCode n).map TableId.entrySize := by
  by_cases beyond : 6 ≤ n
  · rw [(TableId.ofCode_eq_none n).2 beyond]
    exact List.getElem?_eq_none (by simpa using beyond)
  · interval_cases n <;> rfl

theorem tableWriteLength_iff (body : List Byte) : tableWriteLength body = true ↔
    (∃ size n, ([3, 30, 21, 8, 15, 18] : List Nat)[(body.headD 0).toNat]? = some size ∧ 1 ≤ n ∧ n ≤ 8 ∧
        body.length = 3 + n * size) ∨
      (6 ≤ (body.headD 0).toNat ∧ 3 ≤ body.length ∧ body.length ≤ 256) := by
  have named : (body.headD 0).toNat = num8 body 0 := by cases body <;> rfl
  rw [named, entrySizes_eq, ← TableId.ofCode_eq_none]
  cases h : TableId.ofCode (num8 body 0) with
  | none => simp [tableWriteLength_unnamed h]
  | some t => simp [tableWriteLength_named h]

/-- A dispatched command is the dispatch of its kind, with the bodies of its row (R137). -/
theorem exec_eq_dispatch {c : Instr} {k : DeskKind} (h : kindOf c = some k) (s : State) :
    ∃ owner, exec c s = s.occur (State.dispatch k (rowTakes c) owner) := by
  cases c with
  | control | cancel | interrogate | timeSet | modeRequestOperate | modeRequestMaintenance
  | modeRequestNeither | tableWrite | tableRead | tableCommit | substitute | release | traceSelectPoint
  | traceSelectNone | counterClear | restart | diagReadPoint | diagReadGroup | diagReadModule
  | diagReadSlot | diagReadPart => cases h; exact ⟨_, rfl⟩
  | _ => cases h

/-- A body of a length that the kind does not allow is any row's (log entry 5). -/
theorem rowTakes_of_badLength {c : Instr} {k : DeskKind} (h : kindOf c = some k) {body : List Byte}
    (bad : k.lengthAllowed body = false) : rowTakes c body = true := by
  cases c with
  | modeRequestOperate | modeRequestMaintenance | modeRequestNeither | traceSelectPoint | traceSelectNone
  | diagReadPoint | diagReadGroup | diagReadModule | diagReadSlot | diagReadPart =>
    cases h
    have length := of_decide_eq_false bad
    simp [rowTakes, namesOperate, namesMaintenance, namesNeither, namesTracePoint, namesTraceNone,
      namesSelector, length]
  | _ => rfl

/-- A telegram of the kind whose body the row takes is dispatched to its kind. -/
theorem State.Dispatches.dispatch_eq {s : State} {x : RxTelegram} {rest : List RxTelegram}
    (h : s.Dispatches x rest) {k : DeskKind} (kind : x.kind = k.byte) {takes : List Byte → Bool}
    (row : takes x.body = true) (owner : RxTelegram → State → State) :
    State.dispatch k takes owner s = some (s.dispatchTo k x owner) := by
  simp [State.dispatch, h.dispatchable_eq, kind, DeskKind.ofByte_byte, row]

theorem State.Dispatches.dispatchTo_badLength {s : State} {x : RxTelegram} {rest : List RxTelegram}
    (h : s.Dispatches x rest) {k : DeskKind} (bad : k.lengthAllowed x.body = false)
    (owner : RxTelegram → State → State) :
    s.dispatchTo k x owner = s.answered rest [⟨x.kind, .badLength, []⟩] := by
  rw [State.dispatchTo, h.freeBuffer_eq, if_pos (by rw [bad]; rfl)]
  rfl

theorem State.Dispatches.dispatchTo_notPermitted {s : State} {x : RxTelegram} {rest : List RxTelegram}
    (h : s.Dispatches x rest) {k : DeskKind} (length : k.lengthAllowed x.body = true)
    (barred : k.permitted s.ts.mode = false) (owner : RxTelegram → State → State) :
    s.dispatchTo k x owner = s.answered rest [⟨x.kind, .notPermitted, []⟩] := by
  have barred' : k.permitted (s.answered rest []).ts.mode = false := barred
  rw [State.dispatchTo, h.freeBuffer_eq]
  rw [if_neg (by rw [length]; decide), if_pos (by rw [barred']; rfl)]
  rfl

theorem DeskKind.byte_of_ofByte {b : Byte} {k : DeskKind} (h : DeskKind.ofByte b = some k) : b = k.byte := by
  unfold DeskKind.ofByte at h
  split at h <;> cases h <;> exact BitVec.eq_of_toNat_eq (by assumption)

theorem DeskKind.ofByte_eq_none {b : Byte} (h : ∀ k : DeskKind, b ≠ k.byte) :
    DeskKind.ofByte b = none := by
  by_contra named
  obtain ⟨k, hk⟩ := Option.ne_none_iff_exists'.1 named
  exact h k (DeskKind.byte_of_ofByte hk)

/-- Settles O7: each of the three checks ends the dispatch with its answer. -/
theorem dispatchChecksAnswerInOrder : Obligations.DispatchChecksAnswerInOrder := by
  refine ⟨fun k body => ?_, fun k => by cases k <;> rfl, fun s t rest h => ⟨fun unknown => ?_, ?_, ?_⟩⟩
  · cases k with
    | tableWrite => exact ⟨rfl, tableWriteLength_iff body⟩
    | _ => exact ⟨rfl, decide_eq_true_iff⟩
  · simp only [exec, execUnknownKind]
    refine State.occur_eq h.running ?_
    simp only [h.dispatchable_eq, DeskKind.ofByte_eq_none unknown, h.freeBuffer_eq, if_true]
    rfl
  · intro c k known kind bad
    obtain ⟨owner, run⟩ := exec_eq_dispatch known s
    rw [run, State.occur_eq h.running (h.dispatch_eq kind (rowTakes_of_badLength known bad) owner),
      h.dispatchTo_badLength bad]
  · intro c k known kind length row barred
    obtain ⟨owner, run⟩ := exec_eq_dispatch known s
    rw [run, State.occur_eq h.running (h.dispatch_eq kind row owner),
      h.dispatchTo_notPermitted length barred]

/-! ### The key input (R157, R158) -/

theorem State.setKey_frame {s : State} (k : KeyLevel) : Frame [.ts, .slc, .dli] s (s.setKey k) :=
  ⟨fun b hb => by cases b <;> first | exact rfl | exact absurd (by decide) hb, rfl⟩

theorem execKeyWithdrawal_eq {s : State} (hr : s.Running) (hk : s.ts.key = .presented) {stood : Nat}
    (long : 20 ≤ stood) : exec (.keyWithdrawal stood) s = .next (State.transmitNext
      (if s.ts.mode = .maintenance then (s.setKey .withdrawn).leaveMaintenance
        else s.setKey .withdrawn)) := by
  simp only [exec, execKeyWithdrawal]
  exact State.occur_eq hr (if_pos ⟨hk, long⟩)

/-- Settles O18: a withdrawal leaves MAINTENANCE as `State.leaveMaintenance` does, and a contact that has stood for
less than 20 ms is no event. -/
theorem keyChangesActByMode : Obligations.KeyChangesActByMode := by
  intro s stood hr
  refine ⟨fun long hk => ?_, fun long hk => ?_, fun short => ?_⟩
  · have run := execKeyWithdrawal_eq hr hk long
    refine ⟨fun hm => ?_, fun hm hp => ?_, fun hm hp => ?_⟩
    · rw [run, if_neg hm]
      rfl
    · rw [run, if_pos hm, State.leaveMaintenance_of_noCommit (s := s.setKey .withdrawn) hp]
      rfl
    · rw [if_pos hm] at run
      have keyed : Frame [.ts, .slc, .dli] s (s.setKey .withdrawn) := State.setKey_frame .withdrawn
      exact ⟨_, run, (s.setKey .withdrawn).leaveMaintenance_ts,
        State.leaveMaintenance_dli (s := s.setKey .withdrawn) hp,
        { State.leaveMaintenance_holdEnds (s := s.setKey .withdrawn) hp with },
        keyed.trans (State.leaveMaintenance_frame _)⟩
  · simp only [exec, execKeyPresented]
    exact State.occur_eq hr (if_pos ⟨hk, long⟩)
  · have soon (k : KeyLevel) : ¬ (s.ts.key = k ∧ Config.keyStandTime ≤ stood) :=
      fun h => absurd h.2 (Nat.not_le.2 short)
    simp only [exec, execKeyWithdrawal, execKeyPresented]
    exact ⟨State.occur_idle (if_neg (soon _)), State.occur_idle (if_neg (soon _))⟩

/-! ### TABLE_COMMIT and the swap at a held start (R154, R72) -/

theorem State.anySlotOccupied_iff {s : State} : s.anySlotOccupied = true ↔ ∃ k, s.slot k ≠ none := by
  simp [State.anySlotOccupied, allSlots, Option.isSome_iff_ne_none]

theorem State.takeCommit_busy {s : State} (h : s.ts.commitPending = true ∨ ∃ k, s.slot k ≠ none)
    (request : Byte) : s.takeCommit request = s.answer request .busy := by
  rw [← State.anySlotOccupied_iff] at h
  rw [State.takeCommit]
  rcases h with pending | occupied
  · rw [if_pos pending]
  · rw [if_pos occupied, ite_self]

theorem State.takeCommit_free {s : State} (hp : s.ts.commitPending = false) (free : ∀ k, s.slot k = none)
    (request : Byte) : s.takeCommit request =
      match s.ts.shadow.firstInvalid with
      | some (table, index) => s.answer request .invalidEntry (u8 table.code ++ u16 index)
      | none => if s.ts.mode = .unconfigured then s.swap
        else { s with ts := { s.ts with commitPending := true } } := by
  have unoccupied : ¬ s.anySlotOccupied = true := by
    rw [State.anySlotOccupied_iff]
    exact fun ⟨k, hk⟩ => hk (free k)
  rw [State.takeCommit, if_neg (by rw [hp]; decide), if_neg unoccupied] <;> rfl

/-- Settles O22: each outcome is a value of `State.takeCommit`. -/
theorem tableCommitChecksThenCommits : Obligations.TableCommitChecksThenCommits := by
  intro s received rest h
  have obeyed : exec .tableCommit s = .next ((s.answered rest []).takeCommit 0x08).transmitNext :=
    h.dispatch_eq rfl _
  refine ⟨fun busy => ?_, fun hp free => ?_⟩
  · rw [obeyed, State.takeCommit_busy (s := s.answered rest []) busy]
    rfl
  · have taken := State.takeCommit_free (s := s.answered rest []) hp free 0x08
    refine ⟨fun table index invalid => ?_, fun valid hm => ?_, fun valid hm => ?_⟩
    · rw [obeyed, taken, show (s.answered rest []).ts.shadow.firstInvalid = _ from invalid]
      rfl
    · have configured : (s.answered rest []).ts.mode ≠ .unconfigured :=
        fun unconfigured => Mode.noConfusion (hm.symm.trans unconfigured)
      rw [obeyed, taken, show (s.answered rest []).ts.shadow.firstInvalid = _ from valid]
      simp only [if_neg configured]
      rfl
    · rw [obeyed, taken, show (s.answered rest []).ts.shadow.firstInvalid = _ from valid]
      simp only [if_pos (show (s.answered rest []).ts.mode = .unconfigured from hm)]

theorem State.swapReady_of_held {s : State} {c : Cycle} (hc : s.slc.cycle = some c)
    (held : c.held = true) (pending : s.ts.commitPending = true) :
    s.swapReady = if s.slc.banks = [] ∧ s.age.handOvers = [] then some c else none := by
  simp [State.swapReady, hc, held, pending]

theorem State.swap_cycle (s : State) : s.swap.slc.cycle = s.slc.cycle := by
  obtain ⟨origin, due, late, slc⟩ := s.swap_slc
  rw [slc]

/-- Settles O24: the swap is made exactly when `State.swapReady` allows it, and then the hold ends. -/
theorem commitSwapAtHeldStart : Obligations.CommitSwapAtHeldStart := by
  intro s c hr hc held pending
  have ready := State.swapReady_of_held hc held pending
  simp only [exec, execCommitSwap]
  refine ⟨fun banks done => ⟨State.occur_eq hr ?_, ?_, fun m used noScan => ?_⟩,
    fun waits => State.occur_idle ?_⟩
  · rw [ready, if_pos ⟨banks, done⟩]
  · rw [(State.endHold_frame s.swap).blocks .ts (by decide)]
    show s.swap.ts = _
    rw [s.swap_ts]
    cases mode : s.ts.mode <;> simp [State.configured, mode]
  · have left : (∃ n : ModuleNo, c.next ≤ n.val ∧ s.swap.useOf n ≠ .unused) ∨ c.scan ≠ none :=
      .inl ⟨m, used.1, used.2.1⟩
    rw [State.endHold_goesOn (s.swap_cycle.trans hc) left]
  · rw [ready, if_neg (by tauto)]

/-! ### SUBSTITUTE and RELEASE (R15, R16) -/

section Substitutes

variable {s : State} {p : PointNo} {v : StateValue}

theorem StateValue.isDefined_of_validFor {e : PointEntry} (h : v.validFor e.cls = true) :
    e.isDefined = true := by
  cases hc : e.cls with
  | none => rw [hc] at h; cases v <;> cases h
  | single | pair | flasher => simp [PointEntry.isDefined, hc]

theorem State.checkSubstitute_eq_some (h : v.validFor (s.ts.active.pointEntry p).cls = true) :
    s.checkSubstitute p.val v.code = some (p, v) := by
  simp [State.checkSubstitute, pointOf_val, StateValue.ofCode_code, h,
    StateValue.isDefined_of_validFor h]

theorem State.checkSubstitute_eq_none {n code : Nat} (h : ∀ (p : PointNo) (v : StateValue), p.val = n →
    code = v.code → v.validFor (s.ts.active.pointEntry p).cls = false) :
    s.checkSubstitute n code = none := by
  unfold State.checkSubstitute
  split
  next p v hp hv =>
    have point : p.val = n := by
      unfold pointOf at hp
      split at hp <;> cases hp
      rfl
    have value : code = v.code := by
      unfold StateValue.ofCode at hv
      split at hv <;> cases hv <;> rfl
    rw [h p v point value, Bool.and_false, if_neg (by decide)]
  next => rfl

/-- A substitute value is stored, and the POINT record is of a changed view (R14, R15, R16). -/
theorem State.pointRec_setSubstitute (x : Option StateValue) (extra : PointExtra) :
    (s.setSubstitute p x extra).pointRec p = { s.pointRec p with substitute := x } := by
  have handed : Frame [.cq] (s.setPointRec p { s.pointRec p with substitute := x })
      (s.setSubstitute p x extra) := State.handPoint_frame _ _ _ _ _ _
  rw [handed.pointRec_eq (by decide), State.pointRec_setPointRec, if_pos rfl]

theorem PointRecord.view_substitute_iff (r : PointRecord) (v : StateValue) :
    { r with substitute := some v }.view ≠ r.view ↔ (r.reported ≠ .known v ∨ r.substitute = none) := by
  cases h : r.substitute <;> simp [PointRecord.view, PointRecord.reported, PointRecord.substituted, h, eq_comm]

theorem PointRecord.view_release (r : PointRecord) (h : r.substitute = some v) :
    { r with substitute := none }.view ≠ r.view := by
  simp [PointRecord.view, PointRecord.substituted, h]

/-- What a RELEASE's record carries of the evaluated state that it reports (R16). -/
theorem PointRecord.periodExtra_released (r : PointRecord) :
    { r with substitute := none }.periodExtra =
      match r.evaluated, r.lastOnHalf, r.lastOffHalf with
      | .known .flashing, some x, some y => .period (periodOf x y) (dutyOf x y)
      | _, _, _ => .none := by
  rw [PointRecord.periodExtra_eq]
  cases r.evaluated with
  | unknown => rfl
  | known v => cases v <;> cases r.lastOnHalf <;> cases r.lastOffHalf <;> rfl

/-- A SUBSTITUTE's value: the POINT record and the change hand-over, of a changed view (R15). -/
theorem State.imposeSubstitute_eq (s : State) (p : PointNo) (v : StateValue) :
    s.imposeSubstitute p v =
      let changed : Prop := (s.pointRec p).reported ≠ .known v ∨ (s.pointRec p).substitute = none
      let stored := s.setPointRec p { s.pointRec p with substitute := some v }
      let queued :=
        if changed ∧ (s.ts.active.pointEntry p).report = true then
          stored.hand s.now (.point p (.known v) true .none)
        else stored
      if changed then queued.ageChange [p] s.now else queued := by
  simp only [← PointRecord.view_substitute_iff]
  rw [State.imposeSubstitute, State.pointRec_setSubstitute]
  rfl

/-- A RELEASE: the POINT record always, and the change hand-over of a changed reported state (R16). -/
theorem State.removeSubstitute_eq (h : (s.pointRec p).substitute = some v) :
    s.removeSubstitute p =
      let extra := { s.pointRec p with substitute := none }.periodExtra
      let stored := s.setPointRec p { s.pointRec p with substitute := none }
      let queued :=
        if (s.ts.active.pointEntry p).report = true then
          stored.hand s.now (.point p (s.pointRec p).evaluated false extra)
        else stored
      if (s.pointRec p).evaluated ≠ .known v then queued.ageChange [p] s.now else queued := by
  have view := PointRecord.view_release _ h
  have was : (s.pointRec p).reported = .known v := by rw [PointRecord.reported, h]
  have stored : s.setSubstitute p none { s.pointRec p with substitute := none }.periodExtra = _ :=
    if_congr (and_iff_right view) rfl rfl
  rw [State.removeSubstitute, State.pointRec_setSubstitute, was, stored]
  rfl

end Substitutes

/-- Settles O26: each outcome is a value of `State.takeSubstitute` or `State.takeRelease`. -/
theorem substituteAndReleaseSetTheReportedState :
    Obligations.SubstituteAndReleaseSetTheReportedState := by
  intro s received rest n hn
  have number (tail : List Byte) : num16 (u16 n ++ tail) 0 = n := num16_u16 n hn tail
  refine ⟨fun code h => ?_, fun h => ?_⟩
  · have obeyed : exec .substitute s = .next ((s.answered rest []).takeSubstitute 0x09
        (num16 (u16 n ++ [code]) 0) code.toNat).transmitNext := h.dispatch_eq rfl _
    rw [number] at obeyed
    refine ⟨?_, fun invalid => ?_⟩
    · rintro p v rfl value valid old changed stored queued handed
      have check : (s.answered rest []).checkSubstitute p.val v.code = some (p, v) :=
        State.checkSubstitute_eq_some (s := s.answered rest []) valid
      have imposed : (s.answered rest []).imposeSubstitute p v = handed :=
        State.imposeSubstitute_eq _ _ _
      rw [obeyed, State.takeSubstitute, value, check, ← imposed]
    · have check : (s.answered rest []).checkSubstitute n code.toNat = none :=
        State.checkSubstitute_eq_none (s := s.answered rest []) invalid
      rw [obeyed, State.takeSubstitute, check]
      rfl
  · have obeyed : exec .release s = .next ((s.answered rest []).takeRelease 0x0A
        (num16 (u16 n) 0)).transmitNext := h.dispatch_eq rfl _
    have named : num16 (u16 n) 0 = n := number []
    rw [named] at obeyed
    refine ⟨fun beyond => ?_, ?_, ?_⟩
    · rw [obeyed, State.takeRelease, pointOf_eq_none beyond]
      rfl
    · rintro p rfl absent
      rw [obeyed, State.takeRelease, pointOf_val]
      simp only [show ((s.answered rest []).pointRec p).substitute = none from absent]
      rfl
    · rintro p v rfl present old extra stored queued handed
      have carried : { old with substitute := none }.periodExtra = extra :=
        PointRecord.periodExtra_released old
      have removed : (s.answered rest []).removeSubstitute p = handed := by
        rw [State.removeSubstitute_eq (s := s.answered rest []) present]
        simp only [handed, queued, ← carried]
        rfl
      rw [obeyed, State.takeRelease, pointOf_val]
      simp only [show ((s.answered rest []).pointRec p).substitute = some v from present, removed]

end Sys2Proof.Machine

/-! PROOFS. The scan line: cycle starts on the grid (R69 to R72), the ends of an attempt (R76 to R78), the
checks of a reply (R77) and the polls (R73, R75, R93). -/

namespace Sys2Proof.Machine

variable {s : State} {c : Cycle} {sc : Scan} {m : ModuleNo}

/-! ### Cycles (R69 to R72) -/

/-- A cycle has work when it is held or some module is used (R70, R72). -/
theorem State.usedFrom_isSome_iff (n : Nat) :
    (s.usedFrom n).isSome = true ↔ ∃ m : ModuleNo, n ≤ m.val ∧ s.useOf m ≠ .unused := by
  rw [Option.isSome_iff_ne_none, Ne, State.usedFrom_eq_none]
  push Not
  rfl

theorem State.startCycle_eq {due : Time} (h : s.slc.nextDue = some due) (late : Bool) :
    s.startCycle late = { s with slc := { s.slc with
      nextDue := some (nextGridPoint due s.now s.system.scanPeriod)
      lateWaiting := false
      cycle :=
        if s.ts.commitPending = true ∨ ∃ m, s.useOf m ≠ .unused then
          some { start := s.now, held := s.ts.commitPending, next := 0, scan := none }
        else none
      cycleOverruns := if late then bump s.slc.cycleOverruns else s.slc.cycleOverruns } } := by
  have work : (s.ts.commitPending || (s.usedFrom 0).isSome) = true ↔
      (s.ts.commitPending = true ∨ ∃ m, s.useOf m ≠ .unused) := by
    rw [Bool.or_eq_true, State.usedFrom_isSome_iff]
    simp
  rcases s.startCycle_cases late with ⟨absent, -⟩ | ⟨d, present, started⟩
  · cases h.symm.trans absent
  · cases h.symm.trans present
    simp only [started, work]

theorem State.startDue_eq {due : Time} (h : s.slc.nextDue = some due) :
    s.startDue = reached due s.now := by
  rw [State.startDue, h]

theorem State.startOverdue_eq {due : Time} (h : s.slc.nextDue = some due) :
    s.startOverdue = (s.slc.lateWaiting || (due ≠ s.now && reached due s.now)) := by
  rw [State.startOverdue, h]

/-- A cycle with no scan in progress and no used module left finishes (R70, R71). -/
theorem State.finishIfDone_of_done (hc : s.slc.cycle = some c) (unheld : c.held = false)
    (noScan : c.scan = none) (noModule : ∀ m : ModuleNo, c.next ≤ m.val → s.useOf m = .unused) :
    s.finishIfDone =
      if s.startOverdue then (s.setCycle none).startCycle true else s.setCycle none := by
  have none_ := (s.usedFrom_eq_none c.next).2 noModule
  rw [State.finishIfDone, hc]
  simp only [unheld, noScan, none_]
  rfl

/-- The grid points are the whole scan periods after the due time, the next one the first beyond the start
(R69). -/
theorem nextGridPoint_first (n start : Time) {period : Nat} (positive : 1 ≤ period)
    (small : interval n start + period < 4294967296) :
    ∃ k, 1 ≤ k ∧ nextGridPoint n start period = n + BitVec.ofNat 32 (k * period) ∧
      interval n start < interval n (n + BitVec.ofNat 32 (k * period)) ∧
      ∀ j, 1 ≤ j → j < k → interval n (n + BitVec.ofNat 32 (j * period)) ≤ interval n start := by
  have offset {k : Nat} (hk : k < 4294967296) : interval n (n + BitVec.ofNat 32 k) = k := by
    rw [interval, add_sub_cancel_left, BitVec.toNat_ofNat]
    exact Nat.mod_eq_of_lt hk
  obtain ⟨d, hd⟩ : ∃ d, d = interval n start := ⟨_, rfl⟩
  rw [← hd] at small ⊢
  have split := Nat.div_add_mod d period
  have rest := Nat.mod_lt d positive
  have beyond : (d / period + 1) * period = period * (d / period) + period := by ring
  refine ⟨d / period + 1, Nat.le_add_left 1 _, ?_, ?_, fun j _ hj => ?_⟩
  · rw [nextGridPoint, ← hd]
    rfl
  · rw [beyond, offset (by omega)]
    omega
  · have below : j * period ≤ d / period * period := Nat.mul_le_mul_right _ (by omega)
    have whole : d / period * period ≤ d := Nat.div_mul_le_self d period
    rw [offset (by omega)]
    omega

/-- Settles O32: the values of `State.startCycle` and of `State.finishIfDone`, and the first grid point. -/
theorem cyclesStartOnTheGrid : Obligations.CyclesStartOnTheGrid := by
  refine ⟨?_, fun n start period => nextGridPoint_first n start⟩
  intro s due hd started
  refine ⟨fun hr now idle => ?_, fun hr now busy early => ?_,
    fun c hc unheld noScan noModule => ⟨fun overdue => ?_, fun early notDue => ?_⟩⟩
  · simp only [exec, execCycleStart]
    refine State.occur_eq hr ?_
    rw [s.startDue_eq hd, if_pos now, idle]
    exact congrArg some (s.startCycle_eq hd false)
  · obtain ⟨c, hc⟩ := Option.ne_none_iff_exists'.1 busy
    simp only [exec, execCycleStart]
    refine State.occur_eq hr ?_
    rw [s.startDue_eq hd, if_pos now, hc]
    simp only [early]
    rfl
  · have late : s.startOverdue = true := by
      rw [s.startOverdue_eq hd]
      simpa using overdue
    rw [State.finishIfDone_of_done hc unheld noScan noModule, if_pos late,
      State.startCycle_eq (s := s.setCycle none) hd true]
    rfl
  · have onTime : ¬ s.startOverdue = true := by
      rw [s.startOverdue_eq hd, early]
      rcases notDue with unreached | present
      · simp [unreached]
      · simp [present]
    rw [State.finishIfDone_of_done hc unheld noScan noModule, if_neg onTime]
    rfl

/-! ### The ends of an attempt (R76 to R78) -/

theorem State.Scanning.scanIn_eq {line : LinePhase} (h : s.Scanning c sc line) :
    s.scanIn line = some (c, sc) := by
  rw [State.scanIn, h.cycle]
  simp only [h.scan]
  exact if_pos h.line

/-- The desk's rows are the commands that dispatch a kind; a telegram of none is UNKNOWN_KIND's (R137). -/
theorem kindOf_dispatchRow (t : RxTelegram) : kindOf (dispatchRow t) = DeskKind.ofByte t.kind := by
  unfold dispatchRow
  cases h : DeskKind.ofByte t.kind with
  | none => rfl
  | some k =>
    cases k with
    | modeRequest | traceSelect | diagRead => dsimp only; split_ifs <;> rfl
    | _ => rfl

theorem dispatchRow_ne {c : Instr} (h : kindOf c = none) (known : c ≠ .unknownKind) (t : RxTelegram) :
    dispatchRow t ≠ c := by
  rintro rfl
  rw [kindOf_dispatchRow] at h
  exact known (by rw [dispatchRow, h])

/-- The ends of an attempt are taken by the part itself only once they are due. -/
theorem State.due_of_selfStarted {cmd : Instr} (h : s.selfStarted = some cmd) :
    (∀ clock, cmd = .replyTimeout clock → s.timeoutDue = some clock) ∧
      (∀ clock, cmd = .replySilence clock → s.receptionOverdue = some clock) := by
  have noTimeout := fun clock => dispatchRow_ne (c := .replyTimeout clock) rfl Instr.noConfusion
  have noSilence := fun clock => dispatchRow_ne (c := .replySilence clock) rfl Instr.noConfusion
  unfold State.selfStarted at h
  repeat' split at h
  all_goals simp only [Option.some.injEq, reduceCtorEq] at h
  all_goals subst h
  all_goals refine ⟨fun clock same => ?_, fun clock same => ?_⟩
  all_goals first
    | exact absurd same (noTimeout clock _)
    | exact absurd same (noSilence clock _)
    | (cases same <;> assumption)

/-- While a moment of the line is due, the part has something to take. -/
theorem State.notDue_of_selfStarted_none (hr : s.Running) (h : s.selfStarted = none) :
    s.timeoutDue = none ∧ s.receptionOverdue = none := by
  have running : ¬ s.resetHeld = true := by rw [hr]; decide
  unfold State.selfStarted at h
  repeat' split at h
  all_goals first | cases h; done | skip
  · exact absurd ‹_› running
  · exact ⟨‹_›, ‹_›⟩

theorem interval_toInt (t : Time) {k : Nat} (h : k < 2147483648) :
    (t + BitVec.ofNat 32 k - t).toInt = k := by
  rw [add_sub_cancel_left, BitVec.toInt_eq_toNat_cond, BitVec.toNat_ofNat,
    Nat.mod_eq_of_lt (by omega), if_pos (by omega)]

/-- The line clock is read back over anything short of half the range of the elapsed time (R76). -/
theorem LineTime.microsTo_later (a : LineTime) {n : Nat} (h : n ≤ 2000000000) :
    a.microsTo (a.later n) = n := by
  have short : (a.micros.val + n) / 1000 < 2147483648 := by have := a.micros.isLt; omega
  simp only [LineTime.microsTo, LineTime.later, after, interval_toInt _ short]
  omega

theorem LineTime.microsTo_start (t : Time) {ms micros : Nat} (h : ms < 2147483648)
    (hm : micros < 1000) : LineTime.microsTo { ms := t, micros := 0 }
      { ms := t + BitVec.ofNat 32 ms, micros := ⟨micros, hm⟩ } = 1000 * ms + micros := by
  simp only [LineTime.microsTo, interval_toInt _ h]
  simp
  omega

/-- An attempt that fails has raised a counter of its module at the line clock's new reading. -/
theorem State.Scanning.replyTimeout_eq (h : s.Scanning c sc .awaiting) (clock : Micros) :
    exec (.replyTimeout clock) s = s.occur fun s =>
      if s.windowEnded sc clock then
        some (((s.setLineClock clock).setModuleRec sc.mod (s.moduleRec sc.mod).countTimeout).failAttempt
          c sc (s.windowEnd sc).ms)
      else none := by
  simp only [exec, execReplyTimeout, State.occur, h.scanIn_eq]
  rfl

theorem State.Scanning.replySilence_eq (h : s.Scanning c sc .receiving) (clock : Micros) :
    exec (.replySilence clock) s = s.occur fun s =>
      if s.silentPast sc clock then
        some (((s.setLineClock clock).setModuleRec sc.mod (s.moduleRec sc.mod).countFormat).failAttempt
          c sc (s.silenceEnd sc).ms)
      else none := by
  simp only [exec, execReplySilence, State.occur, h.scanIn_eq]
  rfl

theorem State.Scanning.replyFirstByte_eq (h : s.Scanning c sc .awaiting) (byte : FirstByte) :
    exec (.replyFirstByte byte) s = s.occur fun s =>
      if s.beginsInWindow sc byte.clock then
        some ((s.setLineClock byte.clock).setCycle (some { c with
          scan := some
            { sc with line := .receiving, since := s.lineAt byte.clock, more := byte.more } }))
      else none := by
  simp only [exec, execReplyFirstByte, State.occur, h.scanIn_eq]

theorem State.beginsInWindow_iff (clock : Micros) : s.beginsInWindow sc clock = true ↔
    s.slc.lineClock ≤ clock ∧ 0 ≤ sc.since.microsTo ⟨s.now, clock⟩ ∧
      sc.since.microsTo ⟨s.now, clock⟩ ≤ s.system.replyWindow := by
  simp only [State.beginsInWindow, Bool.and_eq_true, decide_eq_true_eq, and_assoc]
  exact Iff.rfl

theorem State.windowEnded_iff (clock : Micros) : s.windowEnded sc clock = true ↔
    s.slc.lineClock ≤ clock ∧ (s.system.replyWindow : Int) ≤ sc.since.microsTo ⟨s.now, clock⟩ := by
  simp only [State.windowEnded, Bool.and_eq_true, decide_eq_true_eq]
  exact Iff.rfl

theorem State.silentPast_iff (clock : Micros) : s.silentPast sc clock = true ↔
    s.slc.lineClock ≤ clock ∧ 10 + (sc.more.toNat : Int) + (s.system.replyWindow : Int) <
      sc.since.microsTo ⟨s.now, clock⟩ := by
  simp only [State.silentPast, Bool.and_eq_true, decide_eq_true_eq]
  simp only [Scan.runLength, Config.byteTime]
  push_cast
  exact Iff.rfl

/-- Settles O34: the two ends of an attempt on the line clock, and that the part takes each when it is due. -/
theorem attemptsFailByTimeoutOrSilence : Obligations.AttemptsFailByTimeoutOrSilence := by
  refine ⟨?_, fun a n h => ⟨a.microsTo_later h, fun ms micros h hm => LineTime.microsTo_start a.ms h hm⟩⟩
  intro s c sc clock more window reading waited present silence r at_ failed
  refine ⟨fun h => ?_, fun h => ?_⟩
  · rw [h.replyFirstByte_eq, h.replyTimeout_eq]
    have begins := s.beginsInWindow_iff (sc := sc) clock
    have ended := s.windowEnded_iff (sc := sc) clock
    refine ⟨fun onward after within => State.occur_eq h.running (if_pos (begins.2 ⟨onward, after, within⟩)),
      fun outside => State.occur_idle (if_neg fun hb => ?_),
      fun onward past => State.occur_eq h.running (if_pos (ended.2 ⟨onward, past⟩)),
      fun before => State.occur_idle (if_neg fun he => ?_),
      fun own => ?_, fun past none_ => ?_⟩
    · obtain ⟨onward, after, within⟩ := begins.1 hb
      rcases outside with back | early | late
      · exact absurd onward (not_le.2 back)
      · exact absurd after (not_le.2 early)
      · exact absurd within (not_le.2 late)
    · obtain ⟨onward, past⟩ := ended.1 he
      rcases before with back | early
      · exact absurd onward (not_le.2 back)
      · exact absurd past (not_le.2 early)
    · obtain ⟨c', sc', scan, -, passed⟩ :=
        (s.timeoutDue_eq_some clock).1 ((State.due_of_selfStarted own).1 clock rfl)
      cases h.scanIn_eq.symm.trans scan
      exact ended.1 passed
    · obtain ⟨k, reading, onward, past⟩ := s.clockAt_later sc.since window past
      have due := (s.timeoutDue_eq_some k).2
        ⟨c, sc, h.scanIn_eq, reading, (s.windowEnded_iff k).2 ⟨onward, past⟩⟩
      cases due.symm.trans (State.notDue_of_selfStarted_none h.running none_).1
  · rw [h.replySilence_eq]
    have silent := s.silentPast_iff (sc := sc) clock
    refine ⟨fun onward past => State.occur_eq h.running (if_pos (silent.2 ⟨onward, past⟩)),
      fun before => State.occur_idle (if_neg fun hs => ?_), fun own => ?_, fun past none_ => ?_⟩
    · obtain ⟨onward, past⟩ := silent.1 hs
      rcases before with back | early
      · exact absurd onward (not_le.2 back)
      · exact absurd past (not_lt.2 early)
    · obtain ⟨c', sc', scan, -, passed⟩ :=
        (s.receptionOverdue_eq_some clock).1 ((State.due_of_selfStarted own).2 clock rfl)
      cases h.scanIn_eq.symm.trans scan
      exact silent.1 passed
    · have reaches : ((10 + sc.more.toNat + window + 1 : Nat) : Int) ≤ present := by
        push_cast
        exact past
      obtain ⟨k, reading, onward, past⟩ := s.clockAt_later sc.since _ reaches
      have past' : silence < sc.since.microsTo ⟨s.now, k⟩ := by push_cast at past; omega
      have due := (s.receptionOverdue_eq_some k).2
        ⟨c, sc, h.scanIn_eq, reading, (s.silentPast_iff k).2 ⟨onward, past'⟩⟩
      cases due.symm.trans (State.notDue_of_selfStarted_none h.running none_).2

/-! ### The checks of a reply (R77, R78) -/

theorem State.endsWhole_iff {n : Nat} (clock : Micros) :
    s.endsWhole sc n clock = true ↔ s.ReplyEnds sc n clock := by
  simp only [State.endsWhole, Bool.and_eq_true, decide_eq_true_eq, and_assoc]
  simp only [State.longestReception, Scan.runLength, Config.byteTime, Nat.mul_comm n 10]
  exact ⟨fun ⟨onward, least, most, running⟩ => ⟨onward, least, most, running⟩,
    fun h => ⟨h.onward, h.least, h.most, h.running⟩⟩

theorem ModuleEntry.checkReply_crc (e : ModuleEntry) {f : List Byte} (h : crcCorrect f = false) :
    e.checkReply f = .crcError := by
  simp [ModuleEntry.checkReply, h]

theorem ModuleEntry.checkReply_format (e : ModuleEntry) {f : List Byte} (h : crcCorrect f = true)
    (bad : num8 f 0 ≠ e.address ∨ num8 f 1 ≠ e.use.replyKind ∨ num8 f 2 ≠ e.use.replyLength) :
    e.checkReply f = .formatError := by
  unfold ModuleEntry.checkReply
  rw [if_neg (by rw [h]; decide)]
  split_ifs <;> first | rfl | tauto

theorem ModuleEntry.checkReply_wellFormed (e : ModuleEntry) {f : List Byte} (h : crcCorrect f = true)
    (address : num8 f 0 = e.address) (kind : num8 f 1 = e.use.replyKind)
    (length : num8 f 2 = e.use.replyLength) : e.checkReply f = .wellFormed := by
  simp [ModuleEntry.checkReply, h, address, kind, length]

/-- A reply whose bytes have ended is judged by its checks (R77). -/
theorem State.Scanning.takeReply_eq (h : s.Scanning c sc .receiving) {f : List Byte}
    (shape : replyShape f = true) {clock : Micros} (ends : s.ReplyEnds sc f.length clock) (use : Use) :
    s.takeReply use ⟨f, clock⟩ =
      match (s.ts.active.moduleEntry sc.mod).checkReply f with
      | .crcError => some (((s.setLineClock clock).setModuleRec sc.mod
          (s.moduleRec sc.mod).countCrc).failAttempt c sc s.now)
      | .formatError => some (((s.setLineClock clock).setModuleRec sc.mod
          (s.moduleRec sc.mod).countFormat).failAttempt c sc s.now)
      | .wellFormed => if (s.ts.active.moduleEntry sc.mod).use = use then
          some ((s.setLineClock clock).judgeReply sc.mod use (replyData f)) else none := by
  have whole : ¬ (!replyShape f || !s.endsWhole sc f.length clock) = true := by
    rw [shape, (s.endsWhole_iff clock).2 ends]
    decide
  rw [State.takeReply, h.scanIn_eq]
  exact if_neg whole

theorem State.Scanning.takeReply_unended (h : s.Scanning c sc .receiving) {f : List Byte}
    {clock : Micros} (open_ : ¬ s.ReplyEnds sc f.length clock) (use : Use) :
    s.takeReply use ⟨f, clock⟩ = none := by
  have unended : (!replyShape f || !s.endsWhole sc f.length clock) = true := by
    rw [← s.endsWhole_iff clock, Bool.not_eq_true] at open_
    rw [open_]
    simp
  rw [State.takeReply, h.scanIn_eq]
  simp only [if_pos unended]

/-- Byte `i` of a whole reply's data is byte `i + 3` of its frame (R169). -/
theorem byteAt_replyData {f : List Byte} {i : Nat} (h : i < num8 f 2) :
    byteAt (replyData f) i = byteAt f (i + 3) := by
  simp [byteAt, replyData, List.getD_eq_getElem?_getD, h, Nat.add_comm]

/-- A well-formed reply that reports module fault ends the scan missed (R78). -/
theorem State.judgeReply_fault {use : Use} {f : List Byte} {flagByte : Nat}
    (length : num8 f 2 = use.replyLength) (place : flagByte = use.replyLength + 2)
    (used : 0 < use.replyLength) (fault : (byteAt f flagByte).getLsbD 1 = true) :
    s.judgeReply m use (replyData f) = s.missScan m s.now := by
  have flags : replyFlags use (replyData f) = byteAt f flagByte := by
    rw [replyFlags, byteAt_replyData (by omega)]
    congr 1
    omega
  unfold State.judgeReply
  exact if_pos (flags ▸ fault)

/-- Settles O35: each check of a reply is a value of `ModuleEntry.checkReply`. -/
theorem replyChecksInOrder : Obligations.ReplyChecksInOrder := by
  intro s c sc reply clock h shape m e r at_ failed expected
  have wanted : expected = (e.use.replyKind, e.use.replyLength) := by
    show (match e.use with | .input => _ | .output => _ | .unused => _) = _
    cases e.use <;> rfl
  have kind : expected.1 = e.use.replyKind := congrArg Prod.fst wanted
  have length : expected.2 = e.use.replyLength := congrArg Prod.snd wanted
  simp only [exec, execInputReply, execDriveReply]
  refine ⟨fun open_ => ⟨State.occur_idle (h.takeReply_unended open_ _),
    State.occur_idle (h.takeReply_unended open_ _)⟩, fun ends => ?_⟩
  have taken := fun use => h.takeReply_eq shape ends use
  refine ⟨fun crc => ?_, fun crc bad => ?_, fun crc address kind_ length_ => ?_⟩
  · have check := e.checkReply_crc crc
    have both (use : Use) : s.occur (fun s => s.takeReply use ⟨reply, clock⟩) =
        .next (failed { r with crcErrors := bump r.crcErrors }).transmitNext :=
      State.occur_eq h.running (by rw [taken, check]; rfl)
    exact ⟨both .input, (both .output).trans (both .input).symm⟩
  · rw [kind, length] at bad
    have check := e.checkReply_format crc bad
    have both (use : Use) : s.occur (fun s => s.takeReply use ⟨reply, clock⟩) =
        .next (failed { r with formatErrors := bump r.formatErrors }).transmitNext :=
      State.occur_eq h.running (by rw [taken, check]; rfl)
    exact ⟨both .input, (both .output).trans (both .input).symm⟩
  · rw [kind] at kind_
    rw [length] at length_
    have check := e.checkReply_wellFormed crc address kind_ length_
    have missed {use : Use} {flagByte : Nat} (own : e.use = use)
        (place : flagByte = use.replyLength + 2) (used : 0 < use.replyLength)
        (fault : (byteAt reply flagByte).getLsbD 1 = true) :
        s.occur (fun s => s.takeReply use ⟨reply, clock⟩) =
          .next (at_.missScan m s.now).transmitNext := by
      refine State.occur_eq h.running ?_
      rw [taken, check]
      exact (if_pos own).trans
        (congrArg some (State.judgeReply_fault (own ▸ length_) place used fault))
    exact ⟨fun own => missed own rfl (by decide), fun own => missed own rfl (by decide)⟩

/-! ### Polls (R73, R75, R93) -/

/-- The attempt that a cycle makes next: the first of the scan of the next used module, or a retry (R70, R78). -/
def State.NextAttempt (s : State) (c : Cycle) (m : ModuleNo) (sent : Nat) : Prop :=
  (c.scan = none ∧ s.NextUsed c.next m ∧ sent = 1) ∨
    (2 ≤ sent ∧ ∃ since more, c.scan = some
      { mod := m, sent := sent - 1, line := .toSend, since := since, more := more })

theorem State.NextAttempt.pollReady_eq {sent : Nat} (next : s.NextAttempt c m sent)
    (hc : s.slc.cycle = some c) (unheld : c.held = false) {use : Use} (hu : s.useOf m = use)
    (room : use = .input → s.slc.banks.length < 2 ∨ 2 ≤ sent) :
    s.pollReady use = some (c, m, sent) := by
  rw [State.pollReady, hc]
  rcases next with ⟨noScan, used, rfl⟩ | ⟨retry, since, more, scan⟩
  · have free : s.useOf m = use ∧ (use = .input → s.slc.banks.length < Config.replyBanks) :=
      ⟨hu, fun input => (room input).resolve_right (by decide)⟩
    simp only [unheld, noScan, (s.usedFrom_eq_some c.next m).2 used, if_pos free]
    rfl
  · have again : sent - 1 + 1 = sent := by omega
    simp [unheld, scan, hu, again]

/-- The first attempt to an INPUT module waits for a free bank (R73). -/
theorem State.NextAttempt.pollReady_waits (next : s.NextAttempt c m 1) (hc : s.slc.cycle = some c)
    (full : 2 ≤ s.slc.banks.length) : s.pollReady .input = none := by
  rcases next with ⟨noScan, used, -⟩ | ⟨retry, -⟩
  · have occupied : ¬ s.slc.banks.length < Config.replyBanks := Nat.not_lt.2 full
    rw [State.pollReady, hc]
    simp [noScan, (s.usedFrom_eq_some c.next m).2 used, occupied]
  · exact absurd retry (by decide)

/-- The eight data bytes of a DRIVE POLL (R169). -/
def driveData (code : ChannelNo → DriveCode) : List Byte :=
  (List.finRange 8).map fun q =>
    let quarter (r : Fin 4) : DriveCode := code ⟨4 * q.val + r.val, by omega⟩
    packCodes (quarter 0) (quarter 1) (quarter 2) (quarter 3)

theorem drivePollFrame_eq (address : Nat) (code : ChannelNo → DriveCode) :
    drivePollFrame address code = frame address 0x12 (driveData code) := rfl

theorem driveData_length (code : ChannelNo → DriveCode) : (driveData code).length = 8 := rfl

theorem packCodes_digit (c : Fin 4 → DriveCode) (r : Fin 4) :
    (packCodes (c 0) (c 1) (c 2) (c 3)).toNat / 4 ^ r.val % 4 = (c r).wire := by
  have small (i : Fin 4) : (c i).wire ≤ 2 := by cases c i <;> decide
  have h0 := small 0
  have h1 := small 1
  have h2 := small 2
  have h3 := small 3
  have sum : (packCodes (c 0) (c 1) (c 2) (c 3)).toNat =
      (c 0).wire + 4 * (c 1).wire + 16 * (c 2).wire + 64 * (c 3).wire := by
    rw [packCodes, BitVec.toNat_ofNat]
    omega
  rw [sum]
  match r with
  | 0 | 1 | 2 | 3 =>
    simp only [Fin.val_zero, Fin.val_one, Fin.val_two, show (3 : Fin 4).val = 3 from rfl]
    omega

/-- Two bits for each channel, channel 0 in the least significant bits of the first byte (R169). -/
theorem driveData_digit (code : ChannelNo → DriveCode) (j : ChannelNo) :
    ((driveData code)[j.val / 4]?).map (fun b => b.toNat / 4 ^ (j.val % 4) % 4) =
      some (code j).wire := by
  have byte : j.val / 4 < 8 := by omega
  have place : (⟨4 * (j.val / 4) + j.val % 4, by omega⟩ : ChannelNo) = j :=
    Fin.ext (Nat.div_add_mod _ _)
  have digit := packCodes_digit (fun r => code ⟨4 * (j.val / 4) + r.val, by omega⟩)
    ⟨j.val % 4, Nat.mod_lt _ (by decide)⟩
  rw [place] at digit
  rw [driveData, List.getElem?_map, List.getElem?_eq_getElem (by simpa using byte), List.getElem_finRange]
  exact congrArg some digit

theorem State.channel_recordSentCodes (m k : ModuleNo) (j : ChannelNo) :
    (s.recordSentCodes m).channel k j =
      if k = m then (s.channel m j).map fun ch => { ch with lastSent := some (s.polledCode m j) }
      else s.channel k j := by
  unfold State.recordSentCodes
  cases hb : s.channelBank m with
  | none =>
    split_ifs with own
    · rw [own, State.channel, hb]
      rfl
    · rfl
  | some bank =>
    simp only [State.channel, hb]
    rw [State.channelBank, Table.get_set]
    split_ifs
    · simp only [Option.map_some, Table.get_tabulate]
    · rfl

/-- The code that a poll carries for a channel (R93). -/
theorem State.polledCode_eq {j : ChannelNo} {ch : Channel} (h : s.channel m j = some ch) :
    s.polledCode m j =
      if (s.moduleRec m).state = .active ∨ (s.moduleRec m).state = .suspect then ch.drive else .off := by
  rw [State.polledCode, h]
  cases (s.moduleRec m).state <;> rfl

/-- What stands on the line for an attempt that awaits its reply (R75). -/
theorem State.Scanning.pollFrame_eq (h : s.Scanning c sc .awaiting) :
    s.pollFrame = match s.useOf sc.mod with
      | .input => some (inputPollFrame (s.ts.active.moduleEntry sc.mod).address)
      | .output => some (drivePollFrame (s.ts.active.moduleEntry sc.mod).address fun ch =>
          ((s.channel sc.mod ch).bind Channel.lastSent).getD .off)
      | .unused => none := by
  unfold State.pollFrame
  simp only [h.scanIn_eq]
  rfl

theorem Frame.pollFrame_eq {t : State} {l : List Block} (h : Frame l s t) (line : .slc ∉ l)
    (tables : .ts ∉ l) (codes : .channels ∉ l) : t.pollFrame = s.pollFrame := by
  have slc : t.slc = s.slc := h.blocks .slc line
  have ts : t.ts = s.ts := h.blocks .ts tables
  have channels : t.channels = s.channels := h.blocks .channels codes
  unfold State.pollFrame State.scanIn State.channel State.channelBank
  rw [slc, ts, channels]

theorem State.sendPoll_slc (s : State) (c : Cycle) (sent : Nat) {use : Use} (hu : s.useOf m = use) :
    (s.sendPoll c m sent).slc = { s.slc with
      cycle := some { c with
        scan := some
          { mod := m, sent := sent, line := .awaiting
            since := LineTime.later { ms := s.now, micros := s.slc.lineClock } (use.pollLength * 10)
            more := 0 } } } := by
  subst hu
  rfl

/-- The code of a channel of an ACTIVE or SUSPECT module is polled as it is, any other as OFF; a channel
without a record is OFF (R93). -/
theorem State.lastSent_recordSentCodes (m : ModuleNo) (j : ChannelNo) :
    (((s.recordSentCodes m).channel m j).bind Channel.lastSent).getD .off =
      ((s.channel m j).map fun ch => if (s.moduleRec m).state = .active ∨ (s.moduleRec m).state = .suspect
        then ch.drive else .off).getD .off := by
  rw [State.channel_recordSentCodes, if_pos rfl]
  cases h : s.channel m j with
  | none => rfl
  | some ch => exact State.polledCode_eq h

/-- Settles O33: the poll is that of `State.pollReady`, and its frame that of the last sent codes. -/
theorem pollsFollowTheModuleMap : Obligations.PollsFollowTheModuleMap := by
  intro s c m sent hr hc unheld next code address framed polled
  have next : s.NextAttempt c m sent := next
  have recorded := s.recordSentCodes_frame m
  simp only [exec, execInputPoll, execDrivePoll]
  refine ⟨fun hu => ⟨fun room => ⟨State.occur_eq hr ?_, ?_⟩, fun full first => State.occur_idle ?_⟩,
    fun hu => ?_⟩
  · rw [next.pollReady_eq hc unheld hu fun _ => room]
    simp only [State.sendPoll, hu]
    rfl
  · have use : ({ s with slc := polled 5 } : State).useOf m = .input := hu
    rw [(State.transmitNext_frame _).pollFrame_eq (by decide) (by decide) (by decide),
      State.Scanning.pollFrame_eq (s := { s with slc := polled 5 }) ⟨hr, rfl, rfl, rfl⟩]
    simp only [use]
    rfl
  · subst first
    rw [next.pollReady_waits hc full]
  · obtain ⟨w, hw⟩ : ∃ w, w = (s.recordSentCodes m).sendPoll c m sent := ⟨_, rfl⟩
    have same : Frame [.slc] (s.recordSentCodes m) w := hw ▸ State.setCycle_frame _ _
    have frame : Frame [.slc, .channels] s w :=
      (recorded.mono (by decide)).trans (same.mono (by decide))
    have slc : w.slc = polled 13 := by
      have use : (s.recordSentCodes m).useOf m = .output := (recorded.useOf_eq (by decide) m).trans hu
      rw [hw, State.sendPoll_slc _ c sent use, recorded.blocks .slc (by decide),
        recorded.now_eq (by decide)]
      rfl
    have channels (k : ModuleNo) (j : ChannelNo) : w.channel k j = (s.recordSentCodes m).channel k j :=
      same.channel_eq (by decide) k j
    refine ⟨w, State.occur_eq hr ?_, slc, fun j => ?_, fun k j other => ?_, frame,
      driveData fun j => ((s.channel m j).map code).getD .off, driveData_length _, ?_, fun j => ?_⟩
    · rw [next.pollReady_eq hc unheld hu (by simp), hw]
    · rw [channels, State.channel_recordSentCodes, if_pos rfl]
      exact Option.map_congr fun ch h => by rw [State.polledCode_eq h]
    · rw [channels, State.channel_recordSentCodes, if_neg other]
    · have use : w.useOf m = .output := (frame.useOf_eq (by decide) m).trans hu
      have tables : w.ts = s.ts := frame.blocks .ts (by decide)
      have running : w.Running := (frame.blocks .reset (by decide)).trans hr
      rw [(State.transmitNext_frame _).pollFrame_eq (by decide) (by decide) (by decide),
        State.Scanning.pollFrame_eq (s := w) ⟨running, by rw [slc], rfl, rfl⟩]
      simp only [use, tables, channels, State.lastSent_recordSentCodes]
      rfl
    · rw [driveData_digit]
      cases (s.channel m j).map code with
      | none => rfl
      | some d => cases d <;> rfl

end Sys2Proof.Machine

/-! PROOFS. What a module's change of state and of wetting hands on (R8, R84, R98, R113), and a readback at the ODU
and the CSU (R94 to R97, R111, R112). -/

namespace Sys2Proof.Machine

variable {s : State} {m : ModuleNo} {t : Time}

/-! ### A sweep that requests no code -/

/-- The plan requests no code of a channel. -/
def Quiet (plan : Slot → Option SlotEnd) : Prop := ∀ sl e, plan sl = some e → e.off = false

section Quiet

variable {plan : Slot → Option SlotEnd}

theorem Quiet.sweepSlot_frame (quiet : Quiet plan) (t : Time) (s : State) (k : SlotNo) :
    Frame [.slots, .cq] s (s.sweepSlot plan t k) := by
  rcases State.sweepSlot_cases plan t s k with ⟨e, -⟩ | ⟨sl, e, -, hp, eq⟩
  · rw [e]; exact .refl _ s
  · rw [eq, State.settleSlot, quiet sl e hp]
    refine Frame.trans ?_ ((State.setSlot_frame _ _ _).mono (by decide))
    cases e.result with
    | none => exact .refl _ s
    | some r => exact (s.hand_frame _ _).mono (by decide)

theorem Quiet.sweep_frame (quiet : Quiet plan) (s : State) :
    Frame [.slots, .cq] s (allSlots.foldl (State.sweepSlot plan t) s) :=
  Frame.foldl _ (fun u k => quiet.sweepSlot_frame t u k) _ s

/-- An operation that does at every slot what a quiet sweep does, as long as the channels are those of the
start, is that sweep. -/
theorem Quiet.foldl_eq_sweep (quiet : Quiet plan) {f : State → SlotNo → State}
    (h : ∀ u k, Frame [.slots, .cq] s u → f u k = u.sweepSlot plan t k) :
    allSlots.foldl f s = allSlots.foldl (State.sweepSlot plan t) s := by
  have walk : ∀ (l : List SlotNo) (u : State), Frame [.slots, .cq] s u →
      l.foldl f u = l.foldl (State.sweepSlot plan t) u := by
    intro l
    induction l with
    | nil => exact fun _ _ => rfl
    | cons k l ih =>
      intro u hu
      rw [List.foldl_cons, List.foldl_cons, h u k hu]
      exact ih _ (hu.trans (quiet.sweepSlot_frame t u k))
  exact walk allSlots s (.refl _ s)

end Quiet

/-- The slots of a group end: each issues a result unless it has issued one, and frees (R112, R113). -/
def endPlan (ends : Slot → Bool) (result : CommandResult) (sl : Slot) : Option SlotEnd :=
  if ends sl then some
    { result := if sl.phase = .finishing then none else some result, off := false, left := none }
  else none

section EndPlan

variable {ends : Slot → Bool} {result : CommandResult}

theorem endPlan_quiet : Quiet (endPlan ends result) := by
  intro sl e h
  unfold endPlan at h
  split at h <;> cases h
  rfl

theorem sweep_endPlan_slot (k : SlotNo) :
    (allSlots.foldl (State.sweepSlot (endPlan ends result) t) s).slot k =
      (s.slot k).bind fun sl => if ends sl then none else some sl := by
  rw [sweep_slot]
  refine congrArg (Option.bind (s.slot k)) (funext fun sl => ?_)
  unfold endPlan
  split <;> rfl

theorem sweep_endPlan_cq (room : s.cq.queue.length ≤ 240) :
    (allSlots.foldl (State.sweepSlot (endPlan ends result) t) s).cq = { s.cq with
      queue := s.cq.queue ++ allSlots.filterMap fun k => (s.slot k).bind fun sl =>
        if ends sl = true ∧ sl.phase ≠ .finishing then
          some { refresh := false, deskTime := t + s.tb.offset, content := .commandResult sl.control result }
        else none } := by
  rw [sweep_cq room]
  refine congrArg (fun q => { s.cq with queue := s.cq.queue ++ q })
    (List.filterMap_congr fun k _ => congrArg (Option.bind (s.slot k)) (funext fun sl => ?_))
  unfold endPlan
  by_cases ended : ends sl = true <;> by_cases finishing : sl.phase = .finishing <;> simp [ended, finishing]

theorem State.endSlot_eq {k : SlotNo} {sl : Slot} (h : s.slot k = some sl) (ended : ends sl = true) :
    s.sweepSlot (endPlan ends result) t k = (s.issueIfOpen sl result t).freeSlot k := by
  rw [State.sweepSlot_of_ended h (if_pos ended), State.issueIfOpen_eq, State.settleSlot, State.freeSlot]
  by_cases finishing : sl.phase = .finishing <;> simp [finishing]

end EndPlan

/-! ### A lost module at the ODU and the CSU (R98, R113) -/

theorem Channel.lose_eq (ch : Channel) : ch.lose = { ch with
    drive := .off
    condition := if ch.isFaulted then .faulted none else .normal none } := by
  cases hc : ch.condition <;> simp [Channel.lose, Channel.isFaulted, hc]

theorem State.channel_oduModuleLost (s : State) (m k : ModuleNo) (j : ChannelNo) :
    (s.oduModuleLost m).channel k j =
      if k = m then (s.channel m j).map Channel.lose else s.channel k j := by
  unfold State.oduModuleLost
  cases hb : s.channelBank m with
  | none =>
    split_ifs with own
    · rw [own, State.channel, hb]
      rfl
    · rfl
  | some bank =>
    simp only [State.channel, hb]
    rw [State.channelBank, Table.get_set]
    split_ifs
    · simp only [Option.map_some]
      exact congrArg some (Table.get_update .init (fun _ c => c.lose) (fun _ => rfl) bank j)
    · rfl

theorem State.csuModuleLost_eq (s : State) (m : ModuleNo) (t : Time) : s.csuModuleLost m t =
    allSlots.foldl (State.sweepSlot (endPlan (fun sl => decide (sl.mod = m)) .moduleLost) t) s := by
  refine endPlan_quiet.foldl_eq_sweep fun u k _ => ?_
  unfold State.loseSlot
  cases hk : u.slot k with
  | none => rw [State.sweepSlot_of_free hk]
  | some sl =>
    by_cases own : sl.mod = m
    · rw [State.endSlot_eq hk (decide_eq_true own)]
      exact if_pos own
    · rw [State.sweepSlot_of_spared hk (if_neg (by simpa using own))]
      exact if_neg own

/-! ### A module notice at the PE (R8) -/

theorem State.pointRec_foldl_losePoint (t : Time) (l : List PointNo) (s : State) {p : PointNo} (h : p ∉ l) :
    (l.foldl (fun s p => s.losePoint p t) s).pointRec p = s.pointRec p := by
  induction l generalizing s with
  | nil => rfl
  | cons q l ih =>
    obtain ⟨other, rest⟩ : p ≠ q ∧ p ∉ l := by simpa only [List.mem_cons, not_or] using h
    rw [List.foldl_cons, ih _ rest, State.losePoint_other s other]

/-- A walk over points that loses those not deliverable is the walk over these, and it hands on those whose
reported state it changed. -/
theorem foldl_noticePoint (t : Time) (l : List PointNo) (distinct : l.Nodup) (s : State)
    (set : List PointNo) :
    let lost := l.filter fun p => !s.pointDeliverable (s.ts.active.pointEntry p)
    let u := lost.foldl (fun s p => s.losePoint p t) s
    l.foldl (noticePoint t) (s, set) =
      (u, set ++ lost.filter fun p => (u.pointRec p).reported ≠ (s.pointRec p).reported) := by
  induction l generalizing s set with
  | nil => simp
  | cons p l ih =>
    obtain ⟨fresh, distinct⟩ := List.nodup_cons.1 distinct
    rw [List.foldl_cons]
    cases deliverable : s.pointDeliverable (s.ts.active.pointEntry p) with
    | true =>
      have stays : noticePoint t (s, set) p = (s, set) := by simp [noticePoint, deliverable]
      simp only [stays, List.filter_cons, deliverable]
      exact ih distinct s set
    | false =>
      obtain ⟨s', hs⟩ : ∃ s', s' = s.losePoint p t := ⟨_, rfl⟩
      have frame : Frame pointBlocks s s' := hs ▸ s.losePoint_frame p t
      have stepped : noticePoint t (s, set) p = (s', changedBetween s s' p set) := by
        simp [noticePoint, deliverable, hs]
      have remaining : (l.filter fun q => !s'.pointDeliverable (s'.ts.active.pointEntry q)) =
          l.filter fun q => !s.pointDeliverable (s.ts.active.pointEntry q) := by
        refine List.filter_congr fun q _ => ?_
        rw [frame.blocks .ts (by decide), frame.pointDeliverable_eq (by decide)]
      have walk := ih distinct s' (changedBetween s s' p set)
      simp only [remaining] at walk
      simp only [stepped, List.filter_cons, deliverable, Bool.not_false, if_true, List.foldl_cons, ← hs, walk]
      obtain ⟨rest, hr⟩ : ∃ rest, rest = l.filter fun q => !s.pointDeliverable (s.ts.active.pointEntry q) :=
        ⟨_, rfl⟩
      have absent : p ∉ rest := by rw [hr]; exact fun h => fresh (List.mem_of_mem_filter h)
      rw [← hr, State.pointRec_foldl_losePoint t rest s' absent]
      refine congrArg (Prod.mk _) ?_
      have others : (rest.filter fun q => ((rest.foldl (fun s p => s.losePoint p t) s').pointRec q).reported ≠
            (s'.pointRec q).reported) =
          rest.filter fun q => ((rest.foldl (fun s p => s.losePoint p t) s').pointRec q).reported ≠
            (s.pointRec q).reported := by
        refine List.filter_congr fun q hq => ?_
        have other : q ≠ p := fun h => absent (h ▸ hq)
        rw [hs, State.losePoint_other s other]
      rw [others]
      by_cases same : (s'.pointRec p).reported = (s.pointRec p).reported <;> simp [changedBetween, same]

theorem State.moduleNotice_eq (canonical : s.Canonical) (m : ModuleNo) (t : Time) :
    let lost := (List.finRange 1024).filter fun p =>
      (s.ts.active.pointEntry p).usesModule m && !s.pointDeliverable (s.ts.active.pointEntry p)
    let u := lost.foldl (fun s p => s.losePoint p t) s
    s.moduleNotice m t =
      u.ageNotice (lost.filter fun p => (u.pointRec p).reported ≠ (s.pointRec p).reported) t := by
  have distinct : (s.pointsOn m).Nodup := by
    rw [State.pointsOn_eq_filter canonical]
    exact (List.nodup_finRange 1024).filter _
  have walk : ∀ lost, lost = (s.pointsOn m).filter (fun p => !s.pointDeliverable (s.ts.active.pointEntry p)) →
      s.moduleNotice m t = (lost.foldl (fun s p => s.losePoint p t) s).ageNotice
        (lost.filter fun p => ((lost.foldl (fun s p => s.losePoint p t) s).pointRec p).reported ≠
          (s.pointRec p).reported) t := by
    rintro _ rfl
    rw [State.moduleNotice, foldl_noticePoint t (s.pointsOn m) distinct s []]
    rfl
  refine walk _ ?_
  rw [State.pointsOn_eq_filter canonical, List.filter_filter]
  exact List.filter_congr fun p _ => Bool.and_comm _ _

/-! ### A point that is lost (R6, R8) -/

theorem State.lossCause_eq (s : State) (e : PointEntry) : s.lossCause e =
    if e.contacts.any fun c => (s.moduleRec c.mod).state ≠ .active ∧ (s.moduleRec c.mod).state ≠ .suspect
    then .module else .wetting := by
  have unheard (st : ModuleState) : (!st.heard) = decide (st ≠ .active ∧ st ≠ .suspect) := by
    cases st <;> rfl
  simp only [State.lossCause, unheard]

/-- A point that takes its loss cause: the POINT record of a changed reported state, and the CSU's notice. -/
theorem State.losePoint_of_changed {p : PointNo} {cause : Cause}
    (hc : s.lossCause (s.ts.active.pointEntry p) = cause) (h : (s.pointRec p).evaluated ≠ .unknown cause) :
    s.losePoint p t =
      let new := (s.pointRec p).loseTo cause
      let stored := s.setPointRec p new
      (if new.reported ≠ (s.pointRec p).reported ∧ (s.ts.active.pointEntry p).report = true then
          stored.hand t (.point p new.reported new.substitute.isSome .none)
        else stored).csuNotice p (.unknown cause) := by
  have view : ((s.pointRec p).loseTo cause).view ≠ (s.pointRec p).view ↔
      ((s.pointRec p).loseTo cause).reported ≠ (s.pointRec p).reported := by
    rw [not_iff_not, PointRecord.view, PointRecord.view, Prod.mk.injEq]
    exact and_iff_left rfl
  have differs : ((s.pointRec p).loseTo cause).evaluated ≠ (s.pointRec p).evaluated := fun same => h same.symm
  unfold State.losePoint
  simp only [hc, if_neg h, State.handOn, if_pos differs]
  exact congrArg (fun u : State => u.csuNotice p (.unknown cause)) (if_congr (and_congr view Iff.rfl) rfl rfl)

/-- A point that is lost again is as it was but for the mark of its working fields (log entry 27). -/
theorem PointRecord.lostAgain_cleared (r : PointRecord) :
    (if r.lostAgain.stale = true then r.lostAgain.cleared else r.lostAgain) = r.cleared := by
  split_ifs with stale
  · rfl
  · have kept : { r with stale := false } = r.cleared := by simpa [PointRecord.lostAgain] using stale
    have unmarked : r.lostAgain = { r with stale := false } := by simp [PointRecord.lostAgain, kept]
    rw [unmarked, kept]

/-- Settles O39: the walk of a module notice, the two ways to lose a point, and what LOST does to channels and
slots. -/
theorem moduleChangesReachPointsChannelsAndSlots :
    Obligations.ModuleChangesReachPointsChannelsAndSlots := by
  intro s m t
  refine ⟨fun canonical => State.moduleNotice_eq canonical m t, fun p => ?_, ⟨fun j => ?_, fun k j other => ?_,
    s.oduModuleLost_frame m⟩, ⟨fun k => ?_, fun room => ?_, ?_⟩, ?_⟩
  · intro e old cause clear
    have hc : s.lossCause e = cause := s.lossCause_eq e
    refine ⟨fun changed => State.losePoint_of_changed hc changed, fun same => ⟨old.lostAgain, ?_, rfl,
      old.lostAgain_cleared⟩⟩
    unfold State.losePoint
    exact if_pos (hc ▸ same)
  · rw [State.channel_oduModuleLost, if_pos rfl]
    exact Option.map_congr fun ch _ => ch.lose_eq
  · rw [State.channel_oduModuleLost, if_neg other]
  · rw [State.csuModuleLost_eq, sweep_endPlan_slot]
    simp only [decide_eq_true_eq]
  · rw [State.csuModuleLost_eq, sweep_endPlan_cq room]
    simp only [decide_eq_true_eq]
    rfl
  · rw [State.csuModuleLost_eq]
    exact endPlan_quiet.sweep_frame s
  · intro c hc ended
    have scanned : s.endScan m = ended.finishIfDone := by
      rw [State.endScan, hc]
      rfl
    refine ⟨fun left => scanned.trans ?_, fun _ => scanned⟩
    have unfinished : ended.finishIfDone = ended := by
      obtain ⟨k, later, used⟩ := left
      exact State.finishIfDone_of_unfinished (s := ended) rfl (.inl ⟨k, later, used⟩)
    exact unfinished

/-! ### Supervision of one channel (R94 to R97, R112) -/

/-- The record of a channel after a verdict. -/
def Verdict.left : Verdict → Channel
  | .unchanged c | .fault c | .clear c => c

/-- The channel becomes FAULTED (R96). -/
def Verdict.faults : Verdict → Bool
  | .fault _ => true
  | .unchanged _ | .clear _ => false

/-- The slot owns the channel (R104). -/
def Slot.owns (m : ModuleNo) (j : ChannelNo) (sl : Slot) : Bool := decide (sl.mod = m ∧ sl.channel = j)

/-- No two slots own one channel (R106). -/
def State.OneOwner (s : State) : Prop :=
  ∀ j k a b, s.slot j = some a → s.slot k = some b → a.mod = b.mod → a.channel = b.channel → j = k

theorem State.ownerOf_eq_some {k : SlotNo} {j : ChannelNo} (h : s.ownerOf m j = some k) :
    ∃ sl, s.slot k = some sl ∧ sl.owns m j = true := by
  have found := List.find?_some h
  cases hk : s.slot k with
  | none => simp [hk] at found
  | some sl => exact ⟨sl, rfl, by simpa [hk, Slot.owns] using found⟩

/-- Slots that the plan spares are left by its sweep. -/
theorem foldl_sweepSlot_of_spared {plan : Slot → Option SlotEnd} (l : List SlotNo)
    (h : ∀ k ∈ l, ∀ sl, s.slot k = some sl → plan sl = none) :
    l.foldl (State.sweepSlot plan t) s = s := by
  induction l with
  | nil => rfl
  | cons k l ih =>
    have here : s.sweepSlot plan t k = s := by
      cases hk : s.slot k with
      | none => exact State.sweepSlot_of_free hk
      | some sl => exact State.sweepSlot_of_spared hk (h k (List.mem_cons_self ..) sl hk)
    rw [List.foldl_cons, here]
    exact ih fun i hi => h i (List.mem_cons_of_mem _ hi)

/-- A notice to the CSU ends the one slot that owns the channel: as a sweep, in which the others are spared
(R112). -/
theorem State.csuChannelFault_eq (one : s.OneOwner) (j : ChannelNo) : s.csuChannelFault m j t =
    allSlots.foldl (State.sweepSlot (endPlan (Slot.owns m j) .outputFault) t) s := by
  have spared {sl : Slot} (h : sl.owns m j = false) :
      endPlan (Slot.owns m j) .outputFault sl = none := if_neg (by rw [h]; decide)
  cases owner : s.ownerOf m j with
  | none =>
    rw [State.csuChannelFault, owner, foldl_sweepSlot_of_spared allSlots fun k _ sl hk =>
      spared (by simpa [Slot.owns] using (s.ownerOf_eq_none m j).1 owner k sl hk)]
  | some k =>
    obtain ⟨sl, hk, owned⟩ := State.ownerOf_eq_some owner
    obtain ⟨before, after, slots⟩ := List.append_of_mem (List.mem_finRange k)
    have distinct : (before ++ k :: after).Nodup := slots ▸ List.nodup_finRange 16
    have others {i : SlotNo} (h : i ≠ k) {a : Slot} (ha : s.slot i = some a) : a.owns m j = false := by
      by_contra owns
      have same : a.owns m j = true := by simpa using owns
      simp only [Slot.owns, decide_eq_true_eq] at same owned
      exact h (one i k a sl ha hk (same.1.trans owned.1.symm) (same.2.trans owned.2.symm))
    have ended := State.endSlot_eq (t := t) (result := .outputFault) hk owned
    rw [List.nodup_append] at distinct
    rw [State.csuChannelFault, owner, show allSlots = before ++ k :: after from slots, List.foldl_append,
      foldl_sweepSlot_of_spared before fun i hi a ha =>
        spared (others (distinct.2.2 i hi k (List.mem_cons_self ..)) ha),
      List.foldl_cons, foldl_sweepSlot_of_spared after]
    · simp only [hk, ended]
    · intro i hi a ha
      have different : i ≠ k := fun h => (List.nodup_cons.1 distinct.2.1).1 (h ▸ hi)
      rw [State.sweepSlot_other _ _ _ different] at ha
      exact spared (others different ha)

/-- The records that the verdict on a channel hands: of its own change, and of the command that it ends (R96, R97,
R112). -/
def State.verdictRecords (s : State) (m : ModuleNo) (t : Time) (j : ChannelNo) : Verdict → List Record
  | .unchanged _ => []
  | .clear _ => [{ refresh := false, deskTime := t + s.tb.offset, content := .channel m j true }]
  | .fault _ => { refresh := false, deskTime := t + s.tb.offset, content := .channel m j false } ::
      allSlots.filterMap fun k => (s.slot k).bind fun sl =>
        if sl.owns m j = true ∧ sl.phase ≠ .finishing then
          some { refresh := false, deskTime := t + s.tb.offset,
                 content := .commandResult sl.control .outputFault }
        else none

section SuperviseOne

variable {levels : BitVec 32} {j : ChannelNo} {ch : Channel}

theorem State.superviseChannel_of_absent (h : s.channel m j = none) :
    State.superviseChannel m levels t s j = s := by
  rw [State.superviseChannel, h]

/-- What the supervision of one channel leaves in the channels, the slots and the queue. -/
theorem State.superviseChannel_of_present (one : s.OneOwner) (h : s.channel m j = some ch)
    {v : Verdict}
    (hv : ch.supervise (levels.getLsbD j) t s.system.settleTime = v) :
    let u := State.superviseChannel m levels t s j
    (∀ k i, u.channel k i = if k = m ∧ i = j then some v.left else s.channel k i) ∧
    (∀ k, u.slot k = (s.slot k).bind fun sl => if v.faults && sl.owns m j then none else some sl) ∧
    (s.cq.queue.length ≤ 239 →
      u.cq = { s.cq with queue := s.cq.queue ++ s.verdictRecords m t j v }) := by
  have stored (c : Channel) (k : ModuleNo) (i : ChannelNo) : (s.setChannel m j c).channel k i =
      if k = m ∧ i = j then some c else s.channel k i := by
    rw [State.channel_setChannel, h]
    rfl
  have frame (c : Channel) : Frame [.channels] s (s.setChannel m j c) := s.setChannel_frame m j c
  have queue (c : Channel) : (s.setChannel m j c).cq = s.cq := (frame c).blocks .cq (by decide)
  have offset (c : Channel) : (s.setChannel m j c).tb.offset = s.tb.offset :=
    congrArg TimeBase.offset ((frame c).blocks .tb (by decide))
  have slots (c : Channel) (k : SlotNo) : (s.setChannel m j c).slot k = s.slot k :=
    (frame c).slot_eq (by decide) k
  have handed (c : Channel) (content : RecordContent) (room : s.cq.queue.length ≤ 239) := State.hand_cq
    (s := s.setChannel m j c) (by rw [queue]; omega) t content
  rw [State.superviseChannel, h]
  simp only [hv]
  cases v with
  | unchanged c => exact ⟨stored c, fun k => by simp [slots, Verdict.faults],
      by simp [queue, State.verdictRecords]⟩
  | clear c =>
    refine ⟨fun k i => by rw [State.hand_channel, stored]; rfl, fun k => ?_, fun room => ?_⟩
    · simp [State.hand_slot, slots, Verdict.faults]
    · rw [handed _ _ room, queue, offset]
      rfl
  | fault c =>
    have handedFrame : Frame [.cq] (s.setChannel m j c)
        ((s.setChannel m j c).hand t (.channel m j false)) := State.hand_frame _ _ _
    obtain ⟨u, hu⟩ : ∃ u, u = (s.setChannel m j c).hand t (.channel m j false) := ⟨_, rfl⟩
    have uSlot (k : SlotNo) : u.slot k = s.slot k := by rw [hu, State.hand_slot, slots]
    have uOne : u.OneOwner := by
      unfold State.OneOwner
      simp only [uSlot]
      exact one
    have uOffset : u.tb.offset = s.tb.offset := by
      rw [hu, handedFrame.blocks .tb (by decide), offset]
    have uQueue (room : s.cq.queue.length ≤ 239) : u.cq = { s.cq with queue := s.cq.queue ++
        [{ refresh := false, deskTime := t + s.tb.offset, content := .channel m j false }] } := by
      rw [hu, handed _ _ room, queue, offset]
    simp only [← hu, State.csuChannelFault_eq uOne]
    refine ⟨fun k i => ?_, fun k => ?_, fun room => ?_⟩
    · rw [(endPlan_quiet.sweep_frame u).channel_eq (by decide), hu, State.hand_channel, stored]
      rfl
    · rw [sweep_endPlan_slot, uSlot]
      rfl
    · rw [sweep_endPlan_cq (by rw [uQueue room, List.length_append, List.length_singleton]; omega),
        uQueue room]
      simp only [uSlot, uOffset, State.verdictRecords, List.append_assoc]
      rfl

/-- The verdict of a readback on a channel that the ODU holds (R94). -/
def State.verdictAt (s : State) (m : ModuleNo) (levels : BitVec 32) (t : Time) (j : ChannelNo) :
    Option Verdict :=
  (s.channel m j).map fun ch => ch.supervise (levels.getLsbD j) t s.system.settleTime

/-- What a readback makes of one channel, by its verdict. -/
structure State.Supervised (s : State) (m : ModuleNo) (levels : BitVec 32) (t : Time)
    (l : List ChannelNo) (u : State) : Prop where
  channel : ∀ k i, u.channel k i =
    if k = m ∧ i ∈ l then (s.verdictAt m levels t i).map Verdict.left else s.channel k i
  slot : ∀ k, u.slot k = (s.slot k).bind fun sl =>
    if sl.mod = m ∧ sl.channel ∈ l ∧ (s.verdictAt m levels t sl.channel).any Verdict.faults = true then none
    else some sl
  queue : s.cq.queue.length + 2 * l.length ≤ 240 →
    u.cq = { s.cq with queue := s.cq.queue ++ l.flatMap fun j =>
      (s.verdictAt m levels t j).elim [] (s.verdictRecords m t j) }

theorem State.supervised_nil (s : State) : s.Supervised m levels t [] s where
  channel k i := by simp
  slot k := by simp
  queue := by simp

theorem State.superviseChannel_supervised (one : s.OneOwner) :
    s.Supervised m levels t [j] (State.superviseChannel m levels t s j) := by
  cases h : s.channel m j with
  | none =>
    have absent : s.verdictAt m levels t j = none := by rw [State.verdictAt, h]; rfl
    rw [State.superviseChannel_of_absent h]
    refine ⟨fun k i => ?_, fun k => ?_, by simp [absent]⟩
    · split_ifs with here
      · obtain ⟨rfl, only⟩ := here
        rw [List.mem_singleton.1 only, h, absent]
        rfl
      · rfl
    · cases s.slot k with
      | none => rfl
      | some sl => simp +contextual [absent]
  | some ch =>
    obtain ⟨v, hv⟩ : ∃ v, ch.supervise (levels.getLsbD j) t s.system.settleTime = v := ⟨_, rfl⟩
    have present : s.verdictAt m levels t j = some v := by rw [State.verdictAt, h, ← hv]; rfl
    obtain ⟨channel, slot, queue⟩ := State.superviseChannel_of_present one h hv
    refine ⟨fun k i => ?_, fun k => ?_, fun room => ?_⟩
    · rw [channel]
      simp only [List.mem_singleton]
      split_ifs with here
      · rw [here.2, present]
        rfl
      · rfl
    · rw [slot]
      refine congrArg (Option.bind (s.slot k)) (funext fun sl => if_congr ?_ rfl rfl)
      simp only [Bool.and_eq_true, Slot.owns, decide_eq_true_eq, List.mem_singleton]
      constructor
      · rintro ⟨faults, own, here⟩
        exact ⟨own, here, by simpa [here, present] using faults⟩
      · rintro ⟨own, here, faults⟩
        exact ⟨by simpa [here, present] using faults, own, here⟩
    · rw [List.length_singleton] at room
      simp [queue (by omega), present]

end SuperviseOne

/-! ### Supervision of all channels of a module (R94 to R97) -/

theorem length_filterMap_le_one {α β : Type} {f : α → Option β} {l : List α} (distinct : l.Nodup)
    (one : ∀ a ∈ l, ∀ b ∈ l, f a ≠ none → f b ≠ none → a = b) : (l.filterMap f).length ≤ 1 := by
  induction l with
  | nil => simp
  | cons a l ih =>
    obtain ⟨fresh, distinct⟩ := List.nodup_cons.1 distinct
    cases h : f a with
    | none =>
      rw [List.filterMap_cons_none h]
      exact ih distinct fun b hb c hc => one b (List.mem_cons_of_mem _ hb) c (List.mem_cons_of_mem _ hc)
    | some y =>
      have rest : l.filterMap f = [] := by
        refine List.filterMap_eq_nil_iff.2 fun b hb => ?_
        by_contra present
        have same := one a (List.mem_cons_self ..) b (List.mem_cons_of_mem _ hb) (by simp [h]) present
        exact fresh (same ▸ hb)
      rw [List.filterMap_cons_some h, rest]
      rfl

/-- A channel hands at most its own record and the result of the one slot that owns it (R104). -/
theorem State.length_verdictRecords (one : s.OneOwner) (j : ChannelNo) (v : Verdict) :
    (s.verdictRecords m t j v).length ≤ 2 := by
  cases v with
  | unchanged c => exact Nat.zero_le 2
  | clear c => exact Nat.le_succ 1
  | fault c =>
    refine Nat.succ_le_succ (length_filterMap_le_one (List.nodup_finRange 16) fun a _ b _ ha hb => ?_)
    have owner {k : SlotNo} (h : ((s.slot k).bind fun sl =>
        if sl.owns m j = true ∧ sl.phase ≠ .finishing then
          some { refresh := false, deskTime := t + s.tb.offset,
                 content := .commandResult sl.control .outputFault : Record }
        else none) ≠ none) : ∃ sl, s.slot k = some sl ∧ sl.mod = m ∧ sl.channel = j := by
      cases hk : s.slot k with
      | none => simp [hk] at h
      | some sl =>
        by_contra foreign
        refine h ?_
        rw [hk, Option.bind_some]
        exact if_neg fun ⟨owns, _⟩ => foreign ⟨sl, rfl, by simpa [Slot.owns] using owns⟩
    obtain ⟨x, hx, xm, xc⟩ := owner ha
    obtain ⟨y, hy, ym, yc⟩ := owner hb
    exact one a b x y hx hy (xm.trans ym.symm) (xc.trans yc.symm)

theorem State.OneOwner.of_fewer {u : State} (one : s.OneOwner)
    (h : ∀ k sl, u.slot k = some sl → s.slot k = some sl) : u.OneOwner :=
  fun j k a b ha hb => one j k a b (h j a ha) (h k b hb)

theorem State.Supervised.fewer {levels : BitVec 32} {l : List ChannelNo} {u : State}
    (h : s.Supervised m levels t l u) {k : SlotNo} {sl : Slot} (hk : u.slot k = some sl) :
    s.slot k = some sl := by
  rw [h.slot] at hk
  cases hs : s.slot k with
  | none => simp [hs] at hk
  | some a =>
    rw [hs, Option.bind_some] at hk
    split at hk <;> cases hk
    rfl

theorem length_flatMap_le {α β : Type} {f : α → List β} {n : Nat} (h : ∀ a, (f a).length ≤ n) (l : List α) :
    (l.flatMap f).length ≤ n * l.length := by
  induction l with
  | nil => simp
  | cons a l ih =>
    rw [List.flatMap_cons, List.length_append, List.length_cons, Nat.mul_succ, Nat.add_comm]
    exact Nat.add_le_add ih (h a)

theorem State.Supervised.queue_length (one : s.OneOwner) {levels : BitVec 32} {l : List ChannelNo} {u : State}
    (h : s.Supervised m levels t l u) (room : s.cq.queue.length + 2 * l.length ≤ 240) :
    u.cq.queue.length ≤ s.cq.queue.length + 2 * l.length := by
  rw [h.queue room, List.length_append]
  refine Nat.add_le_add_left (length_flatMap_le (fun j => ?_) l) _
  cases s.verdictAt m levels t j with
  | none => exact Nat.zero_le 2
  | some v => exact State.length_verdictRecords one j v

/-- Channels supervised in turn: each by the verdict on what it held at the start. -/
theorem State.foldl_superviseChannel (levels : BitVec 32) (t : Time) (l : List ChannelNo)
    (distinct : l.Nodup) (s : State) (one : s.OneOwner) :
    s.Supervised m levels t l (l.foldl (State.superviseChannel m levels t) s) := by
  induction l generalizing s with
  | nil => exact s.supervised_nil
  | cons j l ih =>
    obtain ⟨fresh, distinct⟩ := List.nodup_cons.1 distinct
    obtain ⟨u, hu⟩ : ∃ u, u = State.superviseChannel m levels t s j := ⟨_, rfl⟩
    have first : s.Supervised m levels t [j] u := hu ▸ State.superviseChannel_supervised one
    have frame : Frame commandBlocks s u := hu ▸ s.superviseChannel_frame m levels t j
    have system : u.system = s.system := frame.system_eq (by decide)
    have offset : u.tb.offset = s.tb.offset := congrArg TimeBase.offset (frame.blocks .tb (by decide))
    have rest := ih distinct u (one.of_fewer fun k sl => first.fewer)
    have verdicts {i : ChannelNo} (hi : i ≠ j) : u.verdictAt m levels t i = s.verdictAt m levels t i := by
      rw [State.verdictAt, State.verdictAt, first.channel, system, if_neg (by simp [hi])]
    have slots {i : ChannelNo} (hi : i ≠ j) (k : SlotNo) (f : Slot → Option Record) :
        ((u.slot k).bind fun sl => if sl.owns m i = true ∧ sl.phase ≠ .finishing then f sl else none) =
          (s.slot k).bind fun sl => if sl.owns m i = true ∧ sl.phase ≠ .finishing then f sl else none := by
      rw [first.slot]
      cases s.slot k with
      | none => rfl
      | some sl =>
        simp only [Option.bind_some, List.mem_singleton]
        split_ifs with ended owns owns
        · have other : sl.channel = i := by simpa [Slot.owns] using (of_decide_eq_true owns.1).2
          exact absurd (other.symm.trans ended.2.1) hi
        · rfl
        · simp [owns]
        · simp only [Option.bind_some, if_neg owns]
    have records {i : ChannelNo} (hi : i ≠ j) (v : Verdict) :
        u.verdictRecords m t i v = s.verdictRecords m t i v := by
      cases v with
      | unchanged c => rfl
      | clear c => simp only [State.verdictRecords, offset]
      | fault c => simp only [State.verdictRecords, offset, slots hi]
    have other {i : ChannelNo} (hi : i ∈ l) : i ≠ j := fun h => fresh (h ▸ hi)
    rw [List.foldl_cons, ← hu]
    refine ⟨fun k i => ?_, fun k => ?_, fun room => ?_⟩
    · rw [rest.channel, first.channel]
      by_cases hl : i ∈ l
      · simp only [hl, verdicts (other hl), List.mem_cons_of_mem, List.mem_singleton, other hl, and_false,
          if_false]
      · simp only [hl, and_false, if_false, List.mem_cons, or_false, List.not_mem_nil]
    · rw [rest.slot, first.slot]
      cases s.slot k with
      | none => rfl
      | some sl =>
        simp only [Option.bind_some, List.mem_cons]
        by_cases here : sl.channel = j
        · have passed : sl.channel ∉ l := here ▸ fresh
          simp only [here, fresh, List.not_mem_nil, true_and, or_false]
          split_ifs <;> simp [passed]
        · by_cases hl : sl.channel ∈ l
          · simp [here, hl, verdicts here]
          · simp [here, hl]
    · rw [List.length_cons] at room
      have queued := first.queue_length one (by rw [List.length_singleton]; omega)
      rw [List.length_singleton] at queued
      have queue := first.queue (by rw [List.length_singleton]; omega)
      rw [rest.queue (by omega), queue, List.flatMap_cons, List.append_assoc]
      refine congrArg (fun q => { s.cq with queue := s.cq.queue ++ q }) ?_
      rw [List.flatMap_cons, List.flatMap_nil, List.append_nil]
      refine congrArg _ (List.flatMap_congr fun i hi => ?_)
      rw [verdicts (other hi), funext (records (other hi))]

/-! ### Confirmation (R111) -/

/-- The readback confirms the command of the slot (R111). -/
def State.confirms (s : State) (m : ModuleNo) (levels : BitVec 32) (sl : Slot) : Bool :=
  decide (sl.phase = .confirming) && decide (sl.mod = m) &&
    (s.channel m sl.channel).any fun c => sl.mode.confirmedBy c (levels.getLsbD sl.channel)

theorem State.csuReadback_eq (s : State) (m : ModuleNo) (levels : BitVec 32) (t : Time) :
    s.csuReadback m levels t =
      allSlots.foldl (State.sweepSlot (endPlan (s.confirms m levels) .executed) t) s := by
  refine endPlan_quiet.foldl_eq_sweep fun u k hu => ?_
  unfold State.confirmSlot
  cases hk : u.slot k with
  | none => rw [State.sweepSlot_of_free hk]
  | some sl =>
    dsimp only
    rw [hu.channel_eq (by decide)]
    by_cases confirmed : s.confirms m levels sl = true
    · rw [State.endSlot_eq hk confirmed]
      simp only [State.confirms, Bool.and_eq_true, decide_eq_true_eq, Option.any_eq_true] at confirmed
      obtain ⟨⟨phase, own⟩, c, hc, matched⟩ := confirmed
      simp only [phase, own, hc, matched, State.issueIfOpen_eq, and_self, if_true, reduceCtorEq, if_false]
      rfl
    · rw [State.sweepSlot_of_spared hk (if_neg confirmed)]
      split_ifs with open_
      · cases hc : s.channel m sl.channel with
        | none => rfl
        | some c =>
          exact if_neg fun matched => confirmed (by simpa [State.confirms, open_, hc] using matched)
      · rfl

/-- Settles O42: `State.foldl_superviseChannel` for the ODU, then the sweep of the confirmed slots. -/
theorem readbackFaultsClearsAndConfirms : Obligations.ReadbackFaultsClearsAndConfirms := by
  intro s m levels t sound w supervised verdict faults confirms formed
  obtain ⟨l, hl⟩ : ∃ l, l = if supervised = true then List.finRange 32 else [] := ⟨_, rfl⟩
  obtain ⟨u, hu⟩ : ∃ u, u = l.foldl (State.superviseChannel m levels t) s := ⟨_, rfl⟩
  have listed (j : ChannelNo) : j ∈ l ↔ supervised = true := by
    rw [hl]
    split_ifs with h <;> simp [h]
  have few : l.length ≤ 32 := by
    rw [hl]
    split_ifs <;> simp
  have walk : s.Supervised m levels t l u := by
    rw [hu]
    refine State.foldl_superviseChannel levels t l ?_ s sound.oneOwner
    rw [hl]
    split_ifs
    · exact List.nodup_finRange 32
    · exact List.nodup_nil
  have hw : w = allSlots.foldl (State.sweepSlot (endPlan (u.confirms m levels) .executed) t) u := by
    rw [← State.csuReadback_eq, hu, hl]
    show State.csuReadback _ m levels t = _
    simp only [supervised, decide_eq_true_eq]
    split_ifs <;> rfl
  have frame : Frame commandBlocks s w := s.oduReadback_frame m levels t
  have wChannel (k : ModuleNo) (j : ChannelNo) : w.channel k j = u.channel k j := by
    rw [hw]
    exact (endPlan_quiet.sweep_frame u).channel_eq (by decide) k j
  have confirmed (sl : Slot) : u.confirms m levels sl = confirms sl := by
    simp only [confirms, wChannel]
    rfl
  have faulted (sl : Slot) : (sl.mod = m ∧ supervised = true ∧
      (s.verdictAt m levels t sl.channel).any Verdict.faults = true) ↔ faults sl = true := by
    simp only [faults, Bool.and_eq_true, decide_eq_true_eq, and_assoc, State.verdictAt, Option.any_map]
    exact Iff.rfl
  have uSlot (k : SlotNo) : u.slot k = (s.slot k).bind fun sl => if faults sl then none else some sl := by
    rw [walk.slot]
    simp only [listed, faulted]
  refine ⟨fun j ch hc => ?_, fun k j spared => ?_, fun k => ?_, fun room => ?_, frame⟩
  · rw [wChannel, walk.channel]
    simp only [listed, true_and, State.verdictAt, hc, Option.map_some]
    split_ifs <;> rfl
  · rw [wChannel, walk.channel]
    split_ifs with own
    · have absent : s.channel m j = none := (own.1 ▸ spared).resolve_right (not_not_intro rfl)
      rw [own.1, absent, State.verdictAt, absent]
      rfl
    · rfl
  · rw [hw, sweep_endPlan_slot, uSlot]
    simp only [confirmed]
    cases s.slot k with
    | none => rfl
    | some sl => cases hf : faults sl <;> simp [hf]
  · have records (j : ChannelNo) : (s.verdictAt m levels t j).elim [] (s.verdictRecords m t j) =
        match s.channel m j with
        | none => []
        | some ch => match verdict j ch with
          | .unchanged _ => []
          | .clear _ => [formed (.channel m j true)]
          | .fault _ => formed (.channel m j false) ::
            (List.finRange 16).filterMap fun k => (s.slot k).bind fun sl =>
              if sl.mod = m ∧ sl.channel = j ∧ sl.phase ≠ .finishing then
                some (formed (.commandResult sl.control .outputFault))
              else none := by
      rw [State.verdictAt]
      cases s.channel m j with
      | none => rfl
      | some ch =>
        simp only [Option.map_some, Option.elim_some]
        show s.verdictRecords m t j (verdict j ch) = _
        cases verdict j ch with
        | fault c => simp only [State.verdictRecords, Slot.owns, decide_eq_true_eq, and_assoc]; rfl
        | _ => rfl
    have uQueue := walk.queue (by omega)
    have uRoom := walk.queue_length sound.oneOwner (by omega)
    have uFrame : Frame commandBlocks s u :=
      hu ▸ Frame.foldl _ (fun v j => v.superviseChannel_frame m levels t j) l s
    have uOffset : u.tb.offset = s.tb.offset := congrArg TimeBase.offset (uFrame.blocks .tb (by decide))
    rw [hw, sweep_endPlan_cq (by omega), uQueue]
    refine congrArg (fun q => { s.cq with queue := q }) (congrArg₂ (· ++ ·) ?_ ?_)
    · refine congrArg (s.cq.queue ++ ·) ?_
      rw [hl]
      split_ifs
      · exact List.flatMap_congr fun j _ => records j
      · rfl
    · refine List.filterMap_congr fun k _ => ?_
      rw [uSlot]
      cases s.slot k with
      | none => rfl
      | some sl =>
        have unfinished (h : confirms sl = true) : sl.phase ≠ .finishing := by
          simp only [confirms, Bool.and_eq_true, decide_eq_true_eq] at h
          rw [h.1.1]
          decide
        simp only [Option.bind_some, confirmed, uOffset]
        by_cases ended : confirms sl = true <;> cases faults sl <;> simp [ended, formed, unfinished]

end Sys2Proof.Machine

/-! PROOFS. Accepted replies (R74, R79, R80): the frame of a reply and its levels, and what an accepted reply leaves. -/

namespace Sys2Proof.Machine

variable {s : State} {m : ModuleNo}

/-! ### The frame of a reply (R169) -/

section ReplyFrame

variable {address kind : Nat} {data : List Byte}

theorem crcCorrect_frame : crcCorrect (frame address kind data) = true := crcCorrect_append_crcBytes _

theorem length_frame : (frame address kind data).length = data.length + 5 := by
  simp [frame, u8, crcBytes]

theorem num8_frame_address (h : address < 256) : num8 (frame address kind data) 0 = address :=
  Nat.mod_eq_of_lt h

theorem num8_frame_kind (h : kind < 256) : num8 (frame address kind data) 1 = kind := Nat.mod_eq_of_lt h

theorem num8_frame_length (h : data.length < 256) : num8 (frame address kind data) 2 = data.length :=
  Nat.mod_eq_of_lt h

theorem replyData_frame (h : data.length < 256) : replyData (frame address kind data) = data := by
  rw [replyData, num8_frame_length h]
  show (data ++ _).take data.length = data
  exact List.take_left

theorem replyShape_frame (h : data.length ≤ 9) : replyShape (frame address kind data) = true := by
  have length : (BitVec.ofNat 8 data.length).toNat = data.length := Nat.mod_eq_of_lt (by omega)
  show (decide ((BitVec.ofNat 8 data.length).toNat ≤ Config.longestReplyData) &&
    ((data ++ crcBytes _).length == (BitVec.ofNat 8 data.length).toNat + 2)) = true
  rw [length, List.length_append]
  simp [Config.longestReplyData, h, crcBytes]

end ReplyFrame

/-- Bit `i` of the levels is bit `i mod 8` of byte `i / 8` (R169). -/
theorem testBit_levelsOf (bytes : List Byte) (i : Nat) :
    (levelsOf bytes).testBit i = (byteAt bytes (i / 8)).getLsbD (i % 8) := by
  induction bytes generalizing i with
  | nil => simp [levelsOf, byteAt]
  | cons b bytes ih =>
    have split : levelsOf (b :: bytes) = 2 ^ 8 * levelsOf bytes + b.toNat := by
      rw [levelsOf]
      omega
    rw [split, Nat.testBit_two_pow_mul_add _ b.isLt]
    split_ifs with low
    · rw [Nat.div_eq_of_lt low, Nat.mod_eq_of_lt low]
      rfl
    · have place : i / 8 = (i - 8) / 8 + 1 := by omega
      have offset : i % 8 = (i - 8) % 8 := by omega
      rw [ih, place, offset]
      rfl

theorem imageLevels_bit {levels : List Byte} (h : levels.length = 8) (i : ContactNo) :
    (imageLevels levels).getLsbD i = (byteAt levels (i.val / 8)).getLsbD (i.val % 8) := by
  rw [imageLevels, List.take_of_length_le h.le, BitVec.getLsbD_ofNat, testBit_levelsOf]
  simp

theorem readbackLevels_bit {levels : List Byte} (h : levels.length = 4) (i : ChannelNo) :
    (readbackLevels levels).getLsbD i = (byteAt levels (i.val / 8)).getLsbD (i.val % 8) := by
  rw [readbackLevels, List.take_of_length_le h.le, BitVec.getLsbD_ofNat, testBit_levelsOf]
  simp

/-! ### A well-formed reply (R78) -/

theorem byteAt_append_singleton (levels : List Byte) (flags : Byte) :
    byteAt (levels ++ [flags]) levels.length = flags := by
  simp [byteAt]

theorem State.judgeReply_input {levels : List Byte} {flags : Byte} (h : levels.length = 8)
    (noFault : flags.getLsbD 1 = false) : s.judgeReply m .input (levels ++ [flags]) =
      s.acceptInput m (imageLevels levels) (flags.getLsbD 0) s.now := by
  have flag : replyFlags .input (levels ++ [flags]) = flags := by
    rw [replyFlags, show Use.input.replyLength - 1 = levels.length from h.symm, byteAt_append_singleton]
  have image : imageLevels (levels ++ [flags]) = imageLevels levels := by
    rw [imageLevels, imageLevels, ← h, List.take_left, List.take_length]
  unfold State.judgeReply
  rw [flag, image]
  exact if_neg (by rw [noFault]; decide)

theorem State.judgeReply_output {levels : List Byte} {flags : Byte} (h : levels.length = 4)
    (noFault : flags.getLsbD 1 = false) : s.judgeReply m .output (levels ++ [flags]) =
      s.acceptDrive m (readbackLevels levels) s.now := by
  have flag : replyFlags .output (levels ++ [flags]) = flags := by
    rw [replyFlags, show Use.output.replyLength - 1 = levels.length from h.symm, byteAt_append_singleton]
  have image : readbackLevels (levels ++ [flags]) = readbackLevels levels := by
    rw [readbackLevels, readbackLevels, ← h, List.take_left, List.take_length]
  unfold State.judgeReply
  rw [flag, image]
  exact if_neg (by rw [noFault]; decide)

/-- A well-formed reply that has ended is judged at the line clock's new reading (R77). -/
theorem State.Scanning.takeReply_frame {c : Cycle} {sc : Scan} (h : s.Scanning c sc .receiving)
    {data : List Byte} {clock : Micros} {use : Use} (hu : s.useOf sc.mod = use)
    (address : (s.ts.active.moduleEntry sc.mod).address < 256) (kind : use.replyKind < 256)
    (length : data.length = use.replyLength) (short : data.length ≤ 9)
    (ends : s.ReplyEnds sc (data.length + 5) clock) :
    s.takeReply use ⟨frame (s.ts.active.moduleEntry sc.mod).address use.replyKind data, clock⟩ =
      some ((s.setLineClock clock).judgeReply sc.mod use data) := by
  have entry : (s.ts.active.moduleEntry sc.mod).use = use := hu
  have check := (s.ts.active.moduleEntry sc.mod).checkReply_wellFormed
    (f := frame (s.ts.active.moduleEntry sc.mod).address use.replyKind data) crcCorrect_frame
    (num8_frame_address address) (by rw [entry, num8_frame_kind kind])
    (by rw [entry, num8_frame_length (by omega), length])
  rw [h.takeReply_eq (replyShape_frame short) (by rw [length_frame]; exact ends) use, check]
  simp only [if_pos entry, replyData_frame (show data.length < 256 by omega)]

/-! ### The good scan of an accepted reply (R82) -/

theorem ModuleRec.goodScan_state (r : ModuleRec) (sys : SystemRecord) : (r.goodScan sys).state =
    match r.state with
    | .suspect => .active
    | .starting => if sys.recoveryCount ≤ min (r.good + 1) 15 then .active else .starting
    | .lost => if sys.recoveryCount ≤ min (r.good + 1) 15 then .active else .lost
    | other => other := by
  unfold ModuleRec.goodScan
  cases r.state <;> rfl

/-- A good scan loses no module. -/
theorem ModuleRec.goodScan_kept (r : ModuleRec) (sys : SystemRecord)
    (h : (r.goodScan sys).state ≠ r.state) : (r.goodScan sys).state ≠ .lost := by
  rw [ModuleRec.goodScan_eq] at h ⊢
  dsimp only at h ⊢
  split_ifs at h ⊢ <;> first | exact ModuleState.noConfusion | exact absurd rfl h

/-- A module record stored, and its MODULE record when the state changed (R84). -/
def State.stateStored (s : State) (m : ModuleNo) (r : ModuleRec) (t : Time) : State :=
  if r.state ≠ (s.moduleRec m).state then (s.setModuleRec m r).hand t (.module m r.state)
  else s.setModuleRec m r

theorem State.stateStored_eq (s : State) (m : ModuleNo) (r : ModuleRec) (t : Time) :
    (s.setModuleRec m r).moduleRecord m (s.moduleRec m).state r.state t = s.stateStored m r t := rfl

theorem State.stateStored_banks (s : State) (m : ModuleNo) (r : ModuleRec) (t : Time) :
    (s.stateStored m r t).slc.banks = s.slc.banks := by
  rw [← State.stateStored_eq, (State.moduleRecord_frame _ _ _ _ _).blocks .slc (by decide)]
  rfl

theorem State.moduleRec_stateStored (s : State) (m : ModuleNo) (r : ModuleRec) (t : Time) :
    (s.stateStored m r t).moduleRec m = r := by
  rw [← State.stateStored_eq, (State.moduleRecord_frame _ _ _ _ _).moduleRec_eq (by decide),
    State.moduleRec_setModuleRec, if_pos rfl]

theorem State.useOf_stateStored (s : State) (m k : ModuleNo) (r : ModuleRec) (t : Time) :
    (s.stateStored m r t).useOf k = s.useOf k := by
  rw [← State.stateStored_eq, (State.moduleRecord_frame _ _ _ _ _).useOf_eq (by decide)]
  rfl

/-- The module notice of an accepted INPUT REPLY that changed the state or the wetting flag (R79, R84). -/
def State.inputNoticed (s : State) (m : ModuleNo) (new : ModuleRec) (t : Time) : State :=
  if new.state ≠ (s.moduleRec m).state ∨ new.wetting ≠ (s.moduleRec m).wetting then
    (s.stateStored m new t).moduleNotice m t
  else s.stateStored m new t

theorem State.inputNoticed_banks (s : State) (m : ModuleNo) (new : ModuleRec) (t : Time) :
    (s.inputNoticed m new t).slc.banks = s.slc.banks := by
  have line : (s.inputNoticed m new t).slc = (s.stateStored m new t).slc := by
    unfold State.inputNoticed
    split_ifs
    · exact (State.moduleNotice_frame _ _ _).blocks .slc (by decide)
    · rfl
  rw [line, State.stateStored_banks]

/-- An accepted INPUT REPLY, once a reply bank is free (R79). -/
theorem State.acceptInput_eq (room : s.slc.banks.length < 2) (levels : BitVec 64) (wetting : Bool) (t : Time) :
    s.acceptInput m levels wetting t =
      (if (s.inputAccepted m levels wetting t).state = .active then
        { s.inputNoticed m (s.inputAccepted m levels wetting t) t with
          slc := { (s.inputNoticed m (s.inputAccepted m levels wetting t) t).slc with
            banks := s.slc.banks ++ [⟨m, levels, t⟩] } }
      else s.inputNoticed m (s.inputAccepted m levels wetting t) t).endScan m := by
  have accepted : s.acceptInput m levels wetting t =
      (if (s.inputAccepted m levels wetting t).state = .active then
        (s.inputNoticed m (s.inputAccepted m levels wetting t) t).placeImage ⟨m, levels, t⟩
      else s.inputNoticed m (s.inputAccepted m levels wetting t) t).endScan m := rfl
  have free : (s.inputNoticed m (s.inputAccepted m levels wetting t) t).slc.banks.length <
      Config.replyBanks := by
    rw [State.inputNoticed_banks]
    exact room
  rw [accepted, State.placeImage, if_pos free, State.inputNoticed_banks]

/-- The banks at the end of the scan of an accepted INPUT REPLY (R74). -/
theorem State.acceptInput_banks (room : s.slc.banks.length < 2) (levels : BitVec 64) (wetting : Bool)
    (t : Time) : (s.acceptInput m levels wetting t).slc.banks =
      if (s.inputAccepted m levels wetting t).state = .active then s.slc.banks ++ [⟨m, levels, t⟩]
      else s.slc.banks := by
  rw [State.acceptInput_eq room, State.endScan_banks]
  split_ifs
  · rfl
  · exact State.inputNoticed_banks _ _ _ _

/-- An accepted DRIVE REPLY: no module is lost by it, so its change of state has no notice (R80, R84). -/
theorem State.acceptDrive_eq (hu : s.useOf m = .output) (levels : BitVec 32) (t : Time) :
    s.acceptDrive m levels t =
      ((s.stateStored m (s.driveAccepted m levels t) t).oduReadback m levels t).endScan m := by
  have accepted : s.acceptDrive m levels t =
      ((if (s.driveAccepted m levels t).state ≠ (s.moduleRec m).state then
        (s.stateStored m (s.driveAccepted m levels t) t).stateNotices m (s.driveAccepted m levels t).state t
      else s.stateStored m (s.driveAccepted m levels t) t).oduReadback m levels t).endScan m := rfl
  rw [accepted]
  split_ifs with changed
  · have kept : (s.driveAccepted m levels t).state ≠ .lost := ModuleRec.goodScan_kept _ _ changed
    rw [State.stateNotices_output t ((s.useOf_stateStored m m _ t).trans hu) kept]
  · rfl

/-! ### The obligations -/

/-- Settles O36: a well-formed reply is judged, and the reply accepted as `State.acceptInput_eq` tells. -/
theorem acceptedInputReplyStoresTheImage : Obligations.AcceptedInputReplyStoresTheImage := by
  intro s c sc levels flags clock h ends hu address length noFault room m image old good state new stored
    recorded noticed placed w
  have accepted : (s.setLineClock clock).inputAccepted m image (flags.getLsbD 0) s.now = new := by
    have scanned : ((s.setLineClock clock).inputAccepted m image (flags.getLsbD 0) s.now).state = state :=
      ModuleRec.goodScan_state _ _
    show _ = ({ old with image := _, wetting := _, good := _, miss := _, state := state } : ModuleRec)
    rw [← scanned]
    rfl
  have hw : (s.setLineClock clock).acceptInput m image (flags.getLsbD 0) s.now = w := by
    rw [State.acceptInput_eq (s := s.setLineClock clock) room, accepted]
    rfl
  have scanned := (s.setLineClock clock).acceptInput_scanned m image (flags.getLsbD 0) s.now
  rw [hw, accepted] at scanned
  have taken := h.takeReply_frame hu address (data := levels ++ [flags]) (by decide)
    (by simp [length, Use.replyLength]) (by simp [length]) (by simpa [length] using ends)
  rw [State.judgeReply_input length noFault] at taken
  simp only [exec, execInputReply]
  refine ⟨(State.occur_eq h.running taken).trans (by rw [← hw]; rfl), scanned.own, scanned.others, ?_,
    imageLevels_bit length, ((s.setLineClock_frame clock).mono (by decide)).trans scanned.frame⟩
  rw [← hw, State.acceptInput_banks (s := s.setLineClock clock) room, accepted]
  rfl

/-- The CSU's part of a readback touches no channel, and the ODU none on a module that is not ACTIVE (R99). -/
theorem State.channel_oduReadback_of_inactive {levels : BitVec 32} {t : Time}
    (h : (s.moduleRec m).state ≠ .active) (k : ModuleNo) (j : ChannelNo) :
    (s.oduReadback m levels t).channel k j = s.channel k j := by
  rw [State.oduReadback, if_neg h, State.csuReadback_eq]
  exact (endPlan_quiet.sweep_frame s).channel_eq (by decide) k j

theorem State.acceptDrive_output_frame (hu : s.useOf m = .output) (levels : BitVec 32) (t : Time) :
    Frame [.slc, .channels, .slots, .cq] s (s.acceptDrive m levels t) := by
  rw [State.acceptDrive_eq hu, ← State.stateStored_eq]
  exact ((s.setModuleRec_frame m _).mono (by decide)).trans
    (((State.moduleRecord_frame _ _ _ _ _).mono (by decide)).trans
      (((State.oduReadback_frame _ m levels t).mono (by decide)).trans
        ((State.endScan_frame _ m).mono (by decide))))

/-- Settles O37: a well-formed reply is judged, and the reply accepted as `State.acceptDrive_eq` tells. -/
theorem acceptedDriveReplyStoresTheReadback : Obligations.AcceptedDriveReplyStoresTheReadback := by
  intro s c sc levels flags clock h ends hu address length noFault m readback old good state new stored
    recorded w
  have use : (s.setLineClock clock).useOf m = .output := hu
  have accepted : (s.setLineClock clock).driveAccepted m readback s.now = new := by
    have scanned : ((s.setLineClock clock).driveAccepted m readback s.now).state = state :=
      ModuleRec.goodScan_state _ _
    show _ = ({ old with readback := _, good := _, miss := _, state := state } : ModuleRec)
    rw [← scanned]
    rfl
  have stored_ : (s.setLineClock clock).stateStored m new s.now = recorded := rfl
  have hw : (s.setLineClock clock).acceptDrive m readback s.now = w := by
    rw [State.acceptDrive_eq use, accepted]
    rfl
  have scanned := (s.setLineClock clock).acceptDrive_scanned m readback s.now
  rw [hw, accepted] at scanned
  have taken := h.takeReply_frame hu address (data := levels ++ [flags]) (by decide)
    (by simp [length, Use.replyLength]) (by simp [length]) (by simpa [length] using ends)
  rw [State.judgeReply_output length noFault] at taken
  simp only [exec, execDriveReply]
  refine ⟨(State.occur_eq h.running taken).trans (by rw [← hw]; rfl), scanned.own, scanned.others, ?_,
    fun inactive k j => ?_, readbackLevels_bit length, ?_⟩
  · have readBack := (recorded.oduReadback_frame m readback s.now).blocks .slc (by decide)
    rw [State.endScan_banks, readBack, ← stored_, State.stateStored_banks]
    rfl
  · have same : recorded.channel k j = s.channel k j := by
      rw [← stored_, ← State.stateStored_eq, (State.moduleRecord_frame _ _ _ _ _).channel_eq (by decide),
        (State.setModuleRec_frame _ _ _).channel_eq (by decide)]
      rfl
    have own : (recorded.moduleRec m).state ≠ .active := by
      rw [← stored_, State.moduleRec_stateStored]
      exact inactive
    rw [(State.endScan_frame _ m).channel_eq (by decide), State.channel_oduReadback_of_inactive own, same]
  · rw [← hw]
    exact ((s.setLineClock_frame clock).mono (by decide)).trans (State.acceptDrive_output_frame use _ _)

end Sys2Proof.Machine

/-! PROOFS. The swap (R155, R86, R18, R66, R100, R164, R145). -/

namespace Sys2Proof.Machine

variable {s : State} {old new : Tables} {m : ModuleNo} {p : PointNo} {g : GroupNo}

/-! ### What is kept at the swap -/

theorem moduleKept_iff : moduleKept old new m = true ↔
    (old.moduleEntry m).use ≠ .unused ∧ old.moduleEntry m = new.moduleEntry m := by
  simp [moduleKept]

theorem pointKept_iff : pointKept old new p = true ↔ old.pointEntry p = new.pointEntry p ∧
    ∀ c, c ∈ (new.pointEntry p).contacts → (old.moduleEntry c.mod).use ≠ .unused ∧
      old.moduleEntry c.mod = new.moduleEntry c.mod := by
  simp [pointKept, moduleKept_iff]

theorem groupKept_iff : groupKept old new g = true ↔ old.groupEntry g = new.groupEntry g ∧
    (∀ i, i ∈ (new.groupEntry g).patternRange → old.patternEntry i = new.patternEntry i) ∧
      ∀ p, p ∈ (new.groupEntry g).memberList → pointKept old new p = true := by
  simp [groupKept, and_assoc]

theorem swapModule_eq (old new : Tables) (m : ModuleNo) (r : ModuleRec) : swapModule old new m r =
    let fresh (state : ModuleState) : ModuleRec := { r with
      state := state, good := 0, miss := 0, wetting := false, image := none, readback := none }
    if (new.moduleEntry m).use ≠ .unused then
      if old.moduleEntry m = new.moduleEntry m then r else fresh .starting
    else if (old.moduleEntry m).use ≠ .unused then fresh .unused else r := by
  unfold swapModule
  by_cases same : old.moduleEntry m = new.moduleEntry m
  · cases use : (new.moduleEntry m).use <;> simp [moduleKept, same, use]
  · cases before : (old.moduleEntry m).use <;> cases after : (new.moduleEntry m).use <;>
      simp [moduleKept, same]

theorem swapChannels_eq (old new : Tables) (m : ModuleNo) (bank : Option (Table 32 Channel)) :
    swapChannels old new m bank =
      if (new.moduleEntry m).use ≠ .output then none
      else if old.moduleEntry m = new.moduleEntry m then bank else some [] := by
  unfold swapChannels
  by_cases output : (new.moduleEntry m).use = .output
  · by_cases same : old.moduleEntry m = new.moduleEntry m
    · have kept : moduleKept old new m = true := moduleKept_iff.2 ⟨by rw [same, output]; decide, same⟩
      simp [output, same, kept]
    · have discarded : moduleKept old new m = false := by simp [moduleKept, same]
      simp [output, same, discarded]
  · simp [output]

/-! ### The records after the swap -/

theorem State.groupRec_swapRecords (old new : Tables) (g : GroupNo) :
    (s.swapRecords old new).groupRec g = swapGroup old new g (s.groupRec g) := by
  have init (g : GroupNo) : swapGroup old new g .init = .init := by
    unfold swapGroup
    split <;> rfl
  exact Table.get_update GroupRecord.init (swapGroup old new) init s.groups g

theorem State.channelBank_swapRecords (old new : Tables) (m : ModuleNo) :
    (s.swapRecords old new).channelBank m = swapChannels old new m (s.channelBank m) :=
  Table.get_tabulate none (fun m => swapChannels old new m (s.channelBank m)) m

/-- After the records, the swap touches the grid, the silence timer, the refresh and the mode (R155). -/
theorem State.swapRest_frame (first : Bool) (old new : Tables) :
    Frame [.ts, .slc, .cq, .dli] s (s.swapRest first old new) :=
  ((s.swapGrid_frame first old new).mono (by decide)).trans
    (((State.swapSilence_frame _ first old new).mono (by decide)).trans
      (((State.startRefresh_frame _).mono (by decide)).trans
        ((State.swapMode_frame _ first).mono (by decide))))

/-- The banks exchanged and the records compared: the part at steps 1 to 8 of the swap (R155). -/
def State.swapped (s : State) : State := s.swapBanks.swapRecords s.ts.active s.ts.shadow

theorem State.swap_swapped (s : State) : Frame [.ts, .slc, .cq, .dli] s.swapped s.swap :=
  State.swapRest_frame _ _ _

theorem State.pointRec_swap (s : State) (p : PointNo) :
    s.swap.pointRec p = swapPoint s.ts.active s.ts.shadow p (s.pointRec p) := by
  rw [s.swap_swapped.pointRec_eq (by decide), State.swapped, State.pointRec_swapRecords]
  rfl

theorem State.groupRec_swap (s : State) (g : GroupNo) :
    s.swap.groupRec g = swapGroup s.ts.active s.ts.shadow g (s.groupRec g) := by
  rw [s.swap_swapped.groupRec_eq (by decide), State.swapped, State.groupRec_swapRecords]
  rfl

theorem State.channelBank_swap (s : State) (m : ModuleNo) :
    s.swap.channelBank m = swapChannels s.ts.active s.ts.shadow m (s.channelBank m) := by
  rw [s.swap_swapped.channelBank_eq (by decide), State.swapped, State.channelBank_swapRecords]
  rfl

theorem State.moduleRec_swap (s : State) (m : ModuleNo) :
    s.swap.moduleRec m = swapModule s.ts.active s.ts.shadow m (s.moduleRec m) := by
  obtain ⟨origin, due, late, slc⟩ := s.swap_slc
  rw [State.moduleRec, slc]
  exact Table.get_tabulate ModuleRec.init (fun m => swapModule s.ts.active s.ts.shadow m (s.moduleRec m)) m

/-- The trace selection after the swap, by what becomes of the traced point (R164). -/
theorem State.pe_swap (s : State) : ∃ points,
    s.swap.pe = swapTrace s.ts.active s.ts.shadow { s.pe with points := points } :=
  ⟨_, s.swap_swapped.blocks .pe (by decide)⟩

theorem swapTrace_of_none {pe : PointEvaluator} (h : pe.tracedPoint = none) : swapTrace old new pe = pe := by
  rw [swapTrace, h]

theorem swapTrace_of_some {pe : PointEvaluator} (h : pe.tracedPoint = some p) : swapTrace old new pe =
    if (new.pointEntry p).cls = .none then { pe with tracedPoint := none, lastOffered := none }
    else if pointKept old new p then pe else { pe with lastOffered := none } := by
  rw [swapTrace, h]
  simp [PointEntry.isDefined]

/-! ### The grid and the silence timer -/

theorem nextGridPoint_of_due (start : Time) (period : Nat) :
    nextGridPoint start start period = start + BitVec.ofNat 32 period := by
  simp [nextGridPoint, after, interval_self]

theorem State.slc_swap (s : State) :
    s.swap.slc = (s.swapped.swapGrid (!s.configured) s.ts.active s.ts.shadow).slc := by
  have silence := State.swapSilence_frame (s.swapped.swapGrid (!s.configured) s.ts.active s.ts.shadow)
    (!s.configured) s.ts.active s.ts.shadow
  exact ((State.swapMode_frame _ (!s.configured)).blocks .slc (by decide)).trans
    (silence.blocks .slc (by decide))

theorem State.swapGrid_same (h : old.system.scanPeriod = new.system.scanPeriod) :
    s.swapGrid false old new = s := by
  simp [State.swapGrid, h]

theorem State.swapGrid_changed (h : old.system.scanPeriod ≠ new.system.scanPeriod) {c : Cycle}
    (hc : s.slc.cycle = some c) : (s.swapGrid false old new).slc = { s.slc with
      gridOrigin := some c.start
      nextDue := some (c.start + BitVec.ofNat 32 new.system.scanPeriod)
      lateWaiting := false } := by
  simp [State.swapGrid, h, hc, nextGridPoint_of_due]

theorem State.dli_swap (s : State) : s.swap.dli = { s.dli with
    answers := s.dli.answers ++ [⟨0x08, .committed, []⟩]
    silenceStart :=
      if s.ts.mode = .unconfigured ∨ s.ts.active.system.silenceTime ≠ s.ts.shadow.system.silenceTime
      then s.now else s.dli.silenceStart } := by
  have grid := s.swapped.swapGrid_frame (!s.configured) s.ts.active s.ts.shadow
  have restart : (!s.configured || decide (s.ts.active.system.silenceTime ≠ s.ts.shadow.system.silenceTime)) =
      true ↔ s.ts.mode = .unconfigured ∨
        s.ts.active.system.silenceTime ≠ s.ts.shadow.system.silenceTime := by
    simp [State.configured]
  obtain ⟨u, hu⟩ : ∃ u, u = s.swapped.swapGrid (!s.configured) s.ts.active s.ts.shadow := ⟨_, rfl⟩
  have before : u.dli = { s.dli with answers := s.dli.answers ++ [⟨0x08, .committed, []⟩] } :=
    hu ▸ grid.blocks .dli (by decide)
  have now : u.now = s.now := hu ▸ grid.now_eq (by decide)
  have after_ : s.swap.dli = (u.swapSilence (!s.configured) s.ts.active s.ts.shadow).dli :=
    hu ▸ (State.swapMode_frame _ (!s.configured)).blocks .dli (by decide)
  rw [after_, State.swapSilence]
  by_cases h : s.ts.mode = .unconfigured ∨
    s.ts.active.system.silenceTime ≠ s.ts.shadow.system.silenceTime
  · rw [if_pos (restart.2 h), if_pos h, before, now]
  · rw [if_neg (mt restart.1 h), if_neg h, before]

/-- Settles O23: each block after the swap by the lemma of that block. -/
theorem swapFollowsTheComparison : Obligations.SwapFollowsTheComparison := by
  intro s old new kept
  have kept_iff (p : PointNo) : pointKept old new p = true ↔ kept p := pointKept_iff
  have unconfigured (h : s.ts.mode = .unconfigured) : (!s.configured) = true := by simp [State.configured, h]
  have configured (h : s.ts.mode ≠ .unconfigured) : (!s.configured) = false := by simp [State.configured, h]
  refine ⟨?_, s.dli_swap, s.swap_cq, fun m => (s.moduleRec_swap m).trans (swapModule_eq _ _ m _),
    fun p => ⟨fun hk => ?_, fun hk => ?_⟩, fun g => ?_,
    fun m => (s.channelBank_swap m).trans (swapChannels_eq _ _ m _), fun none_ => ?_, fun p hp => ?_, ?_,
    fun hm => ?_, fun hm same => ?_, fun c hm changed hc => ?_, s.swap_frame⟩
  · rw [s.swap_ts]
    cases mode : s.ts.mode <;> simp [State.configured, mode] <;> rfl
  · rw [s.pointRec_swap, swapPoint, if_pos ((kept_iff p).2 hk)]
  · rw [s.pointRec_swap, swapPoint, if_neg (mt (kept_iff p).1 hk)]
  · intro keptGroup
    have iff : groupKept old new g = true ↔ keptGroup := by
      rw [groupKept_iff]
      simp only [kept_iff]
      exact Iff.rfl
    exact ⟨fun hk => by rw [s.groupRec_swap, swapGroup, if_pos (iff.2 hk)],
      fun hk => by rw [s.groupRec_swap, swapGroup, if_neg (mt iff.1 hk)]⟩
  · obtain ⟨points, pe⟩ := s.pe_swap
    rw [pe, swapTrace_of_none (pe := { s.pe with points := points }) none_]
    exact ⟨none_, rfl⟩
  · obtain ⟨points, pe⟩ := s.pe_swap
    rw [pe, swapTrace_of_some (pe := { s.pe with points := points }) hp]
    refine ⟨fun undefined => ?_, fun defined => ?_⟩
    · rw [if_pos undefined]
      exact ⟨rfl, rfl⟩
    · rw [if_neg defined]
      by_cases hk : kept p
      · rw [if_pos ((kept_iff p).2 hk)]
        exact ⟨hp, fun _ => rfl, fun other => absurd hk other⟩
      · rw [if_neg (mt (kept_iff p).1 hk)]
        exact ⟨hp, fun here => absurd here hk, fun _ => rfl⟩
  · obtain ⟨origin, due, late, slc⟩ := s.swap_slc
    rw [slc]
  · rw [s.slc_swap, unconfigured hm]
    exact ⟨rfl, rfl, rfl⟩
  · rw [s.slc_swap, configured hm, State.swapGrid_same same]
    exact ⟨rfl, rfl, rfl⟩
  · rw [s.slc_swap, configured hm, State.swapGrid_changed (s := s.swapped) changed hc]
    exact ⟨rfl, rfl, rfl⟩

end Sys2Proof.Machine

/-! PROOFS. Validation (R153, R149, R2): the first entry that fails, and what a bank that passes holds. -/

namespace Sys2Proof.Machine

variable {b : Tables}

/-! ### Entries that no table lists pass -/

theorem Tables.moduleFails_unlisted {m : ModuleNo} (h : m ∉ b.moduleMap.keys) : b.moduleFails m = false := by
  have empty : b.moduleEntry m = .empty := Table.get_eq_of_not_mem _ _ _ h
  simp [Tables.moduleFails, empty, ModuleEntry.empty]

theorem Tables.pointFails_unlisted {p : PointNo} (h : p ∉ b.points.keys) : b.pointFails p = false := by
  have empty : b.pointEntry p = .empty := Table.get_eq_of_not_mem _ _ _ h
  simp [Tables.pointFails, empty, PointEntry.empty, PointEntry.contacts]

theorem Tables.patternFailsFor_empty (g : GroupEntry) : b.patternFailsFor .empty g = false := by
  have any (x : Option StateValue) (h : x ∈ PatternEntry.empty.required.toList) : x = none := by
    simpa [PatternEntry.empty] using h
  rw [Tables.patternFailsFor, List.any_eq_false]
  rintro ⟨required, p⟩ hp
  rw [any required (List.of_mem_zip hp).1]
  exact Bool.false_ne_true

theorem Tables.patternFails_unlisted {i : PatternNo} (h : i ∉ b.patterns.keys) : b.patternFails i = false := by
  have empty : b.patternEntry i = .empty := Table.get_eq_of_not_mem _ _ _ h
  simp [Tables.patternFails, empty, Tables.patternFailsFor_empty, Table.keysWhere]

theorem Tables.groupFails_unlisted {g : GroupNo} (h : g ∉ b.groups.keys) : b.groupFails g = false := by
  have empty : b.groupEntry g = .empty := Table.get_eq_of_not_mem _ _ _ h
  simp [Tables.groupFails, empty, GroupEntry.empty, GroupEntry.isDefined]

theorem Tables.commandFails_unlisted {c : ControlNo} (h : c ∉ b.commands.keys) : b.commandFails c = false := by
  have empty : b.commandEntry c = .empty := Table.get_eq_of_not_mem _ _ _ h
  simp [Tables.commandFails, empty, CommandEntry.empty]

/-! ### The first entry that fails (R153) -/

/-- The first failing entry of a canonical table is the first failing number (log entry 18). -/
theorem firstFailing_eq {n : Nat} {α : Type} [DecidableEq α] {d : α} {t : Table n α} (table : TableId)
    (canonical : Table.wf d t = true) {fails : Fin n → Bool} (unlisted : ∀ i, i ∉ t.keys → fails i = false) :
    firstFailing table t fails = (((List.finRange n).filter fails).map fun i => (table, i.val)).head? := by
  have ascending := ((Table.wf_iff d t).1 canonical).1
  have listed : t.keys.filter fails = (List.finRange n).filter fails := by
    refine List.Pairwise.eq_of_mem_iff (r := (· < ·)) (ascending.sublist List.filter_sublist)
      ((List.pairwise_lt_finRange n).sublist List.filter_sublist) fun i => ?_
    simp only [List.mem_filter, List.mem_finRange, true_and]
    exact and_iff_right_of_imp fun fail => by_contra fun absent => by simp [unlisted i absent] at fail
  rw [firstFailing, listed, List.head?_map]

theorem SystemRecord.inRange_eq (y : SystemRecord) : y.inRange =
    ([(y.scanPeriod, 4, 50), (y.replyWindow, 100, 2000), (y.retries, 0, 3), (y.lossThreshold, 1, 15),
      (y.recoveryCount, 1, 15), (y.settleTime, 20, 1000), (y.idleInterval, 200, 5000),
      (y.watermark, 16, 248)].all (fun f => f.2.1 ≤ f.1 && f.1 ≤ f.2.2) &&
        (y.silenceTime = 0 || (500 ≤ y.silenceTime && y.silenceTime ≤ 30000))) := by
  rw [Bool.eq_iff_iff]
  simp [SystemRecord.inRange]
  tauto

/-- The entries that fail, tables in the fixed order and entries ascending (R153). -/
def failingEntries (module : ModuleNo → Bool) (point : PointNo → Bool) (pattern : PatternNo → Bool)
    (group : GroupNo → Bool) (command : ControlNo → Bool) (system : Bool) : List (TableId × Nat) :=
  (((List.finRange 32).filter module).map fun m => (TableId.moduleMap, m.val)) ++
    (((List.finRange 1024).filter point).map fun p => (TableId.points, p.val)) ++
    (((List.finRange 512).filter pattern).map fun i => (TableId.patterns, i.val)) ++
    (((List.finRange 128).filter group).map fun g => (TableId.groups, g.val)) ++
    (((List.finRange 256).filter command).map fun c => (TableId.commands, c.val)) ++
    (if system then [] else [(.system, 0)])

theorem Tables.firstInvalid_eq (canonical : b.canonical) : b.firstInvalid =
    (failingEntries b.moduleFails b.pointFails b.patternFails b.groupFails b.commandFails
      b.system.inRange).head? := by
  obtain ⟨modules, points, groups, patterns, commands⟩ := canonical
  have system : (if b.system.inRange = true then none else some (TableId.system, 0)) =
      (if b.system.inRange = true then [] else [(TableId.system, 0)]).head? := by
    split_ifs <;> rfl
  rw [Tables.firstInvalid, firstFailing_eq .moduleMap modules fun i => b.moduleFails_unlisted,
    firstFailing_eq .points points fun i => b.pointFails_unlisted,
    firstFailing_eq .patterns patterns fun i => b.patternFails_unlisted,
    firstFailing_eq .groups groups fun i => b.groupFails_unlisted,
    firstFailing_eq .commands commands fun i => b.commandFails_unlisted, system, failingEntries]
  simp only [← List.head?_append, List.append_assoc]

/-! ### The five checks spelled out (R153) -/

theorem PointEntry.isDefined_iff (e : PointEntry) : e.isDefined = true ↔ e.cls ≠ .none := by
  simp [PointEntry.isDefined]

theorem Tables.pointFails_eq (b : Tables) (p : PointNo) : b.pointFails p =
    let e := b.pointEntry p
    ((e.cls ≠ .none && !decide ((b.moduleEntry e.a.mod).use = .input)) ||
      (e.cls = .pair && (!decide ((b.moduleEntry e.b.mod).use = .input) ||
        (e.a.mod = e.b.mod && e.a.contact = e.b.contact))) ||
      (e.cls = .flasher && e.halfMax < e.halfMin)) := by
  unfold Tables.pointFails
  cases h : (b.pointEntry p).cls <;> simp [PointEntry.contacts, h, Contact.sameInput, Bool.or_assoc]

/-- A pattern fails for a group at a position of a member of a class that its required state is not of. -/
theorem Tables.patternFailsFor_iff (pattern : PatternEntry) (g : GroupEntry) :
    b.patternFailsFor pattern g = true ↔ ∃ k : Fin 6, k.val < g.memberCount.val ∧
      (b.pointEntry g.members[k]).cls ≠ .none ∧
      ((pattern.required[k]).any fun v => !v.validFor (b.pointEntry g.members[k]).cls) = true := by
  have at_ (required : Option StateValue) (p : PointNo) : (match required with
      | none => false
      | some v => (b.pointEntry p).isDefined && !v.validFor (b.pointEntry p).cls) = true ↔
        (b.pointEntry p).cls ≠ .none ∧ (required.any fun v => !v.validFor (b.pointEntry p).cls) = true := by
    cases required <;> simp [PointEntry.isDefined]
  rw [Tables.patternFailsFor, List.any_eq_true]
  constructor
  · rintro ⟨⟨required, p⟩, hx, fails⟩
    obtain ⟨k, hk, here⟩ := List.mem_iff_getElem.1 hx
    simp only [List.length_zip, GroupEntry.memberList, List.length_take, Vector.length_toList] at hk
    rw [List.getElem_zip, Prod.mk.injEq] at here
    obtain ⟨hr, hp⟩ := here
    refine ⟨⟨k, by omega⟩, by show k < _; omega, ?_⟩
    have required_ : pattern.required[(⟨k, by omega⟩ : Fin 6)] = required := by rw [← hr]; rfl
    have member : g.members[(⟨k, by omega⟩ : Fin 6)] = p := by
      rw [← hp]
      simp [GroupEntry.memberList]
    rw [required_, member]
    exact (at_ required p).1 fails
  · rintro ⟨k, hk, fails⟩
    refine ⟨(pattern.required[k], g.members[k]), List.mem_iff_getElem.2 ⟨k.val, ?_, ?_⟩,
      (at_ _ _).2 fails⟩
    · simp only [List.length_zip, GroupEntry.memberList, List.length_take, Vector.length_toList]
      omega
    · simp [List.getElem_zip, GroupEntry.memberList]

theorem Tables.patternFails_iff (i : PatternNo) : b.patternFails i = true ↔
    ∃ g, (b.groupEntry g).isDefined = true ∧ i ∈ (b.groupEntry g).patternRange ∧
      b.patternFailsFor (b.patternEntry i) (b.groupEntry g) = true := by
  rw [Tables.patternFails, decide_eq_true_eq, Ne, List.eq_nil_iff_forall_not_mem]
  push Not
  refine exists_congr fun g => ?_
  rw [Table.mem_keysWhere (by rfl)]
  simp only [Bool.and_eq_true, List.contains_iff_mem, and_assoc]
  rfl

theorem Tables.patternFails_eq (b : Tables) (i : PatternNo) : b.patternFails i =
    (List.finRange 128).any fun g =>
      let e := b.groupEntry g
      e.firstPattern.val ≤ i.val && i.val < e.firstPattern.val + e.patternCount &&
        (List.finRange 6).any fun k =>
          let cls := (b.pointEntry e.members[k]).cls
          k.val < e.memberCount.val && cls ≠ .none &&
            ((b.patternEntry i).required[k]).any fun v => !v.validFor cls := by
  rw [Bool.eq_iff_iff, b.patternFails_iff]
  simp only [b.patternFailsFor_iff, GroupEntry.mem_patternRange, List.any_eq_true, List.mem_finRange, true_and,
    Bool.and_eq_true, decide_eq_true_eq, and_assoc]
  refine exists_congr fun g => and_iff_right_of_imp fun ⟨_, _, k, hk, _⟩ => ?_
  have some_ : (b.groupEntry g).memberCount ≠ 0 := fun none_ => by simp [none_] at hk
  simpa [GroupEntry.isDefined] using some_

theorem Tables.groupFails_eq (b : Tables) (g : GroupNo) : b.groupFails g =
    let e := b.groupEntry g
    let members := e.members.toList.take e.memberCount.val
    (decide (e.memberCount.val ≠ 0) && ((members.any fun p => decide ((b.pointEntry p).cls = .none)) ||
      !decide members.Nodup || decide (511 < e.firstPattern.val + e.patternCount - 1))) := by
  have defined (e : GroupEntry) : e.isDefined = decide (e.memberCount.val ≠ 0) := by
    rw [GroupEntry.isDefined, Bool.eq_iff_iff, decide_eq_true_eq, decide_eq_true_eq, Ne, Fin.ext_iff]
    rfl
  have undefined (e : PointEntry) : (!e.isDefined) = decide (e.cls = .none) := by
    simp [PointEntry.isDefined]
  simp only [Tables.groupFails, defined, undefined, GroupEntry.memberList]
  rfl

theorem Tables.commandFails_eq (b : Tables) (c : ControlNo) : b.commandFails c =
    let e := b.commandEntry c
    (e.defined && (decide ((b.moduleEntry e.mod).use ≠ .output) || e.proving.any fun p =>
      decide ((b.pointEntry p).cls = .none) || !e.expected.validFor (b.pointEntry p).cls)) := by
  unfold Tables.commandFails
  cases hp : (b.commandEntry c).proving <;> simp [PointEntry.isDefined, hp]

/-! ### A bank that passes (R1, R54, R103) -/

/-- No entry of a bank that passes fails its check. -/
structure Tables.Passes (b : Tables) : Prop where
  modules : ∀ m, b.moduleFails m = false
  points : ∀ p, b.pointFails p = false
  patterns : ∀ i, b.patternFails i = false
  groups : ∀ g, b.groupFails g = false
  commands : ∀ c, b.commandFails c = false

theorem Tables.passes_of_valid (h : b.firstInvalid = none) : b.Passes := by
  have passes {n : Nat} {α : Type} {table : TableId} {t : Table n α} {fails : Fin n → Bool}
      (none_ : firstFailing table t fails = none) (unlisted : ∀ i, i ∉ t.keys → fails i = false) (i : Fin n) :
      fails i = false := by
    by_cases listed : i ∈ t.keys
    · exact firstFailing_eq_none none_ listed
    · exact unlisted i listed
  simp only [Tables.firstInvalid, Option.or_eq_none_iff] at h
  obtain ⟨modules, points, patterns, groups, commands, -⟩ := h
  exact ⟨passes modules fun i => b.moduleFails_unlisted, passes points fun i => b.pointFails_unlisted,
    passes patterns fun i => b.patternFails_unlisted, passes groups fun i => b.groupFails_unlisted,
    passes commands fun i => b.commandFails_unlisted⟩

section Passes

variable (h : b.Passes)
include h

theorem Tables.Passes.address_ne {m k : ModuleNo} (different : k ≠ m) (hm : (b.moduleEntry m).use ≠ .unused)
    (hk : (b.moduleEntry k).use ≠ .unused) : (b.moduleEntry k).address ≠ (b.moduleEntry m).address := by
  have lower {m k : ModuleNo} (less : k < m) (hm : (b.moduleEntry m).use ≠ .unused)
      (hk : (b.moduleEntry k).use ≠ .unused) : (b.moduleEntry k).address ≠ (b.moduleEntry m).address := by
    have passes := h.modules m
    simp only [Tables.moduleFails, hm, ne_eq, not_false_eq_true, decide_true, Bool.true_and,
      List.any_eq_false, List.mem_finRange, forall_const] at passes
    simpa [less, hk] using passes k
  rcases lt_or_gt_of_ne different with less | greater
  · exact lower less hm hk
  · exact (lower greater hk hm).symm

theorem Tables.Passes.point (p : PointNo) :
    (∀ c, c ∈ (b.pointEntry p).contacts → (b.moduleEntry c.mod).use = .input) ∧
    ((b.pointEntry p).cls = .pair → (b.pointEntry p).a.mod ≠ (b.pointEntry p).b.mod ∨
      (b.pointEntry p).a.contact ≠ (b.pointEntry p).b.contact) ∧
    ((b.pointEntry p).cls = .flasher → (b.pointEntry p).halfMin ≤ (b.pointEntry p).halfMax) := by
  have passes := h.points p
  simp only [Tables.pointFails, Bool.or_eq_false_iff, List.any_eq_false] at passes
  obtain ⟨⟨inputs, inputs_differ⟩, halves⟩ := passes
  refine ⟨fun c hc => by simpa using inputs c hc, fun pair => ?_, fun flasher => ?_⟩
  · simpa [pair, Contact.sameInput, imp_iff_not_or] using inputs_differ
  · simpa [flasher] using halves

theorem Tables.Passes.group {g : GroupNo} (defined : (b.groupEntry g).isDefined = true) :
    (∀ p, p ∈ (b.groupEntry g).memberList → (b.pointEntry p).cls ≠ .none) ∧
    (b.groupEntry g).memberList.Nodup ∧
    (b.groupEntry g).firstPattern.val + (b.groupEntry g).patternCount ≤ 512 := by
  have passes := h.groups g
  simp only [Tables.groupFails, defined, Bool.true_and, Bool.or_eq_false_iff, List.any_eq_false] at passes
  obtain ⟨⟨members, distinct⟩, range⟩ := passes
  refine ⟨fun p hp => by simpa [PointEntry.isDefined] using members p hp, by simpa using distinct, ?_⟩
  have inside := of_decide_eq_false range
  omega

theorem Tables.Passes.pattern {g : GroupNo} {i : PatternNo} (defined : (b.groupEntry g).isDefined = true)
    (hi : i ∈ (b.groupEntry g).patternRange) {v : StateValue} {p : PointNo}
    (hx : (some v, p) ∈ (b.patternEntry i).required.toList.zip (b.groupEntry g).memberList) :
    v.validFor (b.pointEntry p).cls = true := by
  have member := (h.group defined).1 p (List.of_mem_zip hx).2
  by_contra invalid
  have fails : b.patternFailsFor (b.patternEntry i) (b.groupEntry g) = true :=
    List.any_eq_true.2 ⟨_, hx, by simpa [(PointEntry.isDefined_iff _).2 member] using invalid⟩
  have passes := h.patterns i
  rw [b.patternFails_iff i |>.2 ⟨g, defined, hi, fails⟩] at passes
  cases passes

theorem Tables.Passes.command {c : ControlNo} (defined : (b.commandEntry c).defined = true) :
    (b.moduleEntry (b.commandEntry c).mod).use = .output ∧
    ∀ p, (b.commandEntry c).proving = some p →
      (b.commandEntry c).expected.validFor (b.pointEntry p).cls = true := by
  have passes := h.commands c
  simp only [Tables.commandFails_eq, defined, Bool.true_and, Bool.or_eq_false_iff] at passes
  obtain ⟨output, proving⟩ := passes
  refine ⟨by simpa using output, fun p hp => ?_⟩
  rw [hp, Option.any_some, Bool.or_eq_false_iff] at proving
  simpa using proving.2

end Passes

/-- Settles O25: the checks are those of R153, and each property of a bank that passes is one of them. -/
theorem validatedBankIsSound : Obligations.ValidatedBankIsSound := by
  refine ⟨?_, fun b valid => ?_⟩
  · intro b canonical use valid onInput moduleFails pointFails patternFails groupFails commandFails y
      systemPasses failing
    have same (v : StateValue) (cls : PointClass) : v.validFor cls = valid v cls := by
      cases cls <;> cases v <;> rfl
    have modules : b.moduleFails = moduleFails := rfl
    have points : b.pointFails = pointFails := funext b.pointFails_eq
    have patterns : b.patternFails = patternFails := by
      funext i
      rw [b.patternFails_eq]
      simp only [same]
      rfl
    have groups : b.groupFails = groupFails := funext b.groupFails_eq
    have commands : b.commandFails = commandFails := by
      funext c
      rw [b.commandFails_eq]
      simp only [same]
      rfl
    have system : b.system.inRange = systemPasses := y.inRange_eq
    rw [Tables.firstInvalid_eq canonical, modules, points, patterns, groups, commands, system]
    rfl
  · have passes := Tables.passes_of_valid valid
    exact ⟨fun m k => passes.address_ne, fun p => (passes.point p).1, fun p => (passes.point p).2.1,
      fun p => (passes.point p).2.2, fun g => passes.group, fun g i defined hi v p => passes.pattern defined hi,
      fun c => passes.command⟩

end Sys2Proof.Machine

/-! PROOFS. TABLE_WRITE (R150, R151): the entries of a telegram are read one behind the other and written to
consecutive indexes, in each of the six tables by the same two functions. -/

namespace Sys2Proof.Machine

/-! ### Entries one behind the other -/

section Entries

variable {α : Type} {n size : Nat}

/-- The bytes of entry `k` of a run of entries. -/
def entryBytes (size : Nat) (data : List Byte) (k : Nat) : List Byte := (data.drop (k * size)).take size

@[simp] theorem entryBytes_zero (data : List Byte) : entryBytes size data 0 = data.take size := by
  simp [entryBytes]

theorem entryBytes_drop (data : List Byte) (k : Nat) :
    entryBytes size (data.drop size) k = entryBytes size data (k + 1) := by
  rw [entryBytes, entryBytes, List.drop_drop, Nat.add_mul, Nat.one_mul, Nat.add_comm]

variable {parse : List Byte → Option (α × Bool)} {count : Nat} {data : List Byte}

theorem parseEntries_eq_none :
    parseEntries parse size count data = none ↔ ∃ k, k < count ∧ parse (entryBytes size data k) = none := by
  induction count generalizing data with
  | zero => simp [parseEntries]
  | succ count ih =>
    rw [Nat.exists_lt_succ_left, entryBytes_zero]
    simp only [← entryBytes_drop, ← ih]
    rw [parseEntries]
    cases parse (data.take size) <;> cases parseEntries parse size count (data.drop size) <;> simp

/-- The entries `es` are those that the bytes say, clamped somewhere or not. -/
structure ReadsEntries (parse : List Byte → Option (α × Bool)) (size count : Nat) (data : List Byte)
    (es : List α) (clamped : Bool) : Prop where
  length : es.length = count
  entries : ∀ k (h : k < es.length), ∃ c, parse (entryBytes size data k) = some (es[k], c)
  clamped : clamped = true ↔ ∃ k e, k < count ∧ parse (entryBytes size data k) = some (e, true)

theorem parseEntries_reads {es : List α} {clamped : Bool}
    (h : parseEntries parse size count data = some (es, clamped)) :
    ReadsEntries parse size count data es clamped := by
  induction count generalizing data es clamped with
  | zero => cases h; exact ⟨rfl, nofun, by simp⟩
  | succ count ih =>
    unfold parseEntries at h
    split at h
    · next e c es' cs front behind =>
      cases h
      obtain ⟨length, entries, clamped⟩ := ih behind
      refine ⟨by rw [List.length_cons, length], fun k hk => ?_, ?_⟩
      · cases k with
        | zero => exact ⟨c, by rw [entryBytes_zero, front]; rfl⟩
        | succ k =>
          rw [← entryBytes_drop]
          exact entries k (Nat.lt_of_succ_lt_succ hk)
      · rw [exists_comm]
        simp only [Bool.or_eq_true, clamped, Nat.exists_lt_succ_left, ← entryBytes_drop, entryBytes_zero, front,
          Option.some.injEq, Prod.mk.injEq, exists_or]
        rw [exists_comm]
        simp
    · cases h

variable [DecidableEq α] (d : α)

theorem get_writeEntries_outside {t : Table n α} {first : Nat} {es : List α} {i : Fin n}
    (h : ¬ (first ≤ i.val ∧ i.val < first + es.length)) :
    (writeEntries d t first es).get d i = t.get d i := by
  induction es generalizing t first with
  | nil => rfl
  | cons e es ih =>
    rw [List.length_cons] at h
    rw [writeEntries, ih (by omega)]
    split
    · exact Table.get_set_ne d t e (Fin.ne_of_val_ne (by dsimp only; omega))
    · rfl

theorem get_writeEntries_inside {t : Table n α} {first k : Nat} {es : List α} {i : Fin n}
    (hk : k < es.length) (hi : i.val = first + k) : (writeEntries d t first es).get d i = es[k] := by
  induction es generalizing t first k with
  | nil => exact absurd hk (Nat.not_lt_zero k)
  | cons e es ih =>
    rw [writeEntries]
    cases k with
    | zero =>
      have first_lt : first < n := by omega
      rw [get_writeEntries_outside d (by omega), dif_pos first_lt, Table.get_set,
        if_pos (Fin.ext hi)]
      rfl
    | succ k => exact ih (Nat.lt_of_succ_lt_succ hk) (by omega)

end Entries

/-! ### The six tables -/

section Tables

variable {n size : Nat} {α : Type} {b : Tables} {table : TableId} {entry : Tables → Fin n → α}
  {parse : List Byte → Option (α × Bool)} {kept : Tables → Tables} {first count : Nat} {data : List Byte}

/-- A table is written as R150 says when its entries are read and then put. -/
theorem Tables.Writes.of_put {put : List α → Tables}
    (write : b.write table first count data = (parseEntries parse size count data).map fun r => (put r.1, r.2))
    (inside : ∀ es, es.length = count → first + count ≤ n → ∀ (i : Fin n) k (h : k < es.length),
      i.val = first + k → entry (put es) i = es[k])
    (outside : ∀ es, es.length = count → first + count ≤ n → ∀ i : Fin n,
      ¬ (first ≤ i.val ∧ i.val < first + count) →
      entry (put es) i = entry b i)
    (others : ∀ es, put es = kept (put es)) :
    b.Writes table size entry parse kept first count data := by
  have written {after clamped} (h : b.write table first count data = some (after, clamped)) :
      ∃ es, put es = after ∧ ReadsEntries parse size count data es clamped := by
    rw [write] at h
    obtain ⟨⟨es, c⟩, read, put⟩ := Option.map_eq_some_iff.1 h
    cases put
    exact ⟨es, rfl, parseEntries_reads read⟩
  refine ⟨fun _ => ?_, fun fits after clamped h i k hk hi => ?_, fun fits after clamped h => ?_,
    fun _ after clamped h => ?_⟩
  · rw [write, Option.map_eq_none_iff]
    exact parseEntries_eq_none
  · obtain ⟨es, rfl, reads⟩ := written h
    have hk : k < es.length := by rw [reads.length]; exact hk
    rw [inside es reads.length fits i k hk hi]
    exact reads.entries k hk
  · obtain ⟨es, rfl, reads⟩ := written h
    exact ⟨outside es reads.length fits, others es⟩
  · obtain ⟨es, -, reads⟩ := written h
    exact reads.clamped

/-- The same for a table of numbered records. -/
theorem Tables.Writes.of_table [DecidableEq α] {d : α} {t : Tables → Table n α} {put : Table n α → Tables}
    (write : b.write table first count data =
      (parseEntries parse size count data).map fun r => (put (writeEntries d (t b) first r.1), r.2))
    (get : ∀ b i, entry b i = (t b).get d i) (put_get : ∀ x, t (put x) = x)
    (others : ∀ x, put x = kept (put x)) :
    b.Writes table size entry parse kept first count data := by
  refine .of_put write (fun es _ _ i k hk hi => ?_) (fun es length _ i hi => ?_) fun _ => others _
  · rw [get, put_get, get_writeEntries_inside d hk hi]
  · rw [get, put_get, get_writeEntries_outside d (by rwa [length]), get]

end Tables

theorem Tables.write_writes (b : Tables) (first count : Nat) (data : List Byte) :
    b.Writes .moduleMap 3 Tables.moduleEntry ModuleEntry.parse
      (fun after => { b with moduleMap := after.moduleMap }) first count data ∧
    b.Writes .points 30 Tables.pointEntry PointEntry.parse
      (fun after => { b with points := after.points }) first count data ∧
    b.Writes .groups 21 Tables.groupEntry GroupEntry.parse
      (fun after => { b with groups := after.groups }) first count data ∧
    b.Writes .patterns 8 Tables.patternEntry PatternEntry.parse
      (fun after => { b with patterns := after.patterns }) first count data ∧
    b.Writes .commands 15 Tables.commandEntry CommandEntry.parse
      (fun after => { b with commands := after.commands }) first count data ∧
    b.Writes .system 18 (fun b (_ : Fin 1) => b.system) SystemRecord.parse
      (fun after => { b with system := after.system }) first count data := by
  refine ⟨.of_table (t := Tables.moduleMap) (put := fun x => { b with moduleMap := x }) rfl
      (fun _ _ => rfl) (fun _ => rfl) fun _ => rfl,
    .of_table (t := Tables.points) (put := fun x => { b with points := x }) rfl
      (fun _ _ => rfl) (fun _ => rfl) fun _ => rfl,
    .of_table (t := Tables.groups) (put := fun x => { b with groups := x }) rfl
      (fun _ _ => rfl) (fun _ => rfl) fun _ => rfl,
    .of_table (t := Tables.patterns) (put := fun x => { b with patterns := x }) rfl
      (fun _ _ => rfl) (fun _ => rfl) fun _ => rfl,
    .of_table (t := Tables.commands) (put := fun x => { b with commands := x }) rfl
      (fun _ _ => rfl) (fun _ => rfl) fun _ => rfl,
    .of_put (put := fun es => { b with system := es.getLastD b.system }) rfl
      (fun es length fits i k hk hi => ?_) (fun es length fits i hi => ?_) fun _ => rfl⟩
  · obtain ⟨e, rfl⟩ := List.length_eq_one_iff.1 (show es.length = 1 by omega)
    obtain rfl : k = 0 := by simpa using hk
    rfl
  · obtain rfl : es = [] := List.eq_nil_of_length_eq_zero (by omega)
    rfl

/-! ### The telegram -/

section Telegram

variable {s : State} {table : TableId} {first : Nat} {data : List Byte}

theorem TableId.ofCode_code (table : TableId) : TableId.ofCode (num8 (u8 table.code) 0) = some table := by
  cases table <;> rfl

theorem TableId.ofCode_unnamed {n : Nat} (h : ∀ table : TableId, n ≠ table.code) : TableId.ofCode n = none := by
  unfold TableId.ofCode
  split
  · exact absurd rfl (h .moduleMap)
  · exact absurd rfl (h .points)
  · exact absurd rfl (h .groups)
  · exact absurd rfl (h .patterns)
  · exact absurd rfl (h .commands)
  · exact absurd rfl (h .system)
  · rfl

theorem State.writeTable_of_pending (h : s.ts.commitPending = true) (body : List Byte) :
    s.writeTable body = (.busy, s.ts.shadow, []) := by
  unfold State.writeTable
  exact if_pos h

theorem State.writeTable_of_unnamed (h : s.ts.commitPending = false) {named : Byte} {rest : List Byte}
    (unnamed : ∀ table : TableId, named.toNat ≠ table.code) :
    s.writeTable (named :: rest) = (.outOfRange, s.ts.shadow, []) := by
  have none : TableId.ofCode (num8 (named :: rest) 0) = none := TableId.ofCode_unnamed unnamed
  simp only [State.writeTable, h, none]
  rfl

/-- A write that no commit hinders, to a table that there is. -/
theorem State.writeTable_eq (hfirst : first < 65536) (h : s.ts.commitPending = false) :
    s.writeTable (u8 table.code ++ u16 first ++ data) =
      if table.entries < first + data.length / table.entrySize then (.outOfRange, s.ts.shadow, [])
      else ((s.ts.shadow.write table first (data.length / table.entrySize) data).map fun r =>
        (if r.2 then AnswerStatus.clamped else .accepted, r.1,
          u8 table.code ++ u16 first ++ u8 (data.length / table.entrySize))).getD
            (.outOfRange, s.ts.shadow, []) := by
  have named : TableId.ofCode (num8 (u8 table.code ++ u16 first ++ data) 0) = some table :=
    TableId.ofCode_code table
  have index : num16 (u8 table.code ++ u16 first ++ data) 1 = first := num16_u16 first hfirst data
  have length : (u8 table.code ++ u16 first ++ data).length - 3 = data.length := by
    simp only [List.length_append, length_u16, length_u8]
    omega
  have behind : (u8 table.code ++ u16 first ++ data).drop 3 = data := rfl
  simp only [State.writeTable, h, named, index, length, behind, Bool.false_eq_true, if_false]
  split
  · rfl
  · cases s.ts.shadow.write table first (data.length / table.entrySize) data <;> rfl

/-- What a TABLE_WRITE leaves: its answer, and SHADOW as the write makes it. -/
def State.tableWritten (s : State) (rest : List RxTelegram) (status : AnswerStatus) (shadow : Tables)
    (payload : List Byte) : State :=
  { s.answered rest [⟨0x06, status, payload⟩] with ts := { s.ts with shadow := shadow } }

theorem State.Obeys.tableWrite_eq {received : Time} {rest : List RxTelegram} {body payload : List Byte}
    {status : AnswerStatus} {shadow : Tables} (h : s.Obeys .tableWrite body received rest)
    (hw : s.writeTable body = (status, shadow, payload)) :
    exec .tableWrite s = .next (s.tableWritten rest status shadow payload).transmitNext := by
  have obeyed : exec .tableWrite s = .next ((s.answered rest []).takeTableWrite 0x06 body).transmitNext :=
    h.dispatch_eq rfl _
  have outcome : (s.answered rest []).writeTable body = (status, shadow, payload) := hw
  rw [obeyed, State.takeTableWrite, outcome]
  rfl

end Telegram

/-- Settles O19: each outcome of the checks by its lemma, and the six tables by `Tables.write_writes`. -/
theorem tableWriteChecksThenWritesShadow : Obligations.TableWriteChecksThenWritesShadow := by
  intro s received rest reply
  constructor
  · intro named body unnamed h
    cases pending : s.ts.commitPending with
    | true => exact h.tableWrite_eq (State.writeTable_of_pending pending _)
    | false => exact h.tableWrite_eq (State.writeTable_of_unnamed pending unnamed)
  intro table first data hfirst h count
  have written (idle : s.ts.commitPending = false) := State.writeTable_eq (table := table) (data := data) hfirst idle
  refine ⟨fun pending => ?_, fun idle beyond => ?_, fun idle fits unread => ?_,
    fun shadow clamped idle fits read => ?_, rfl, rfl, rfl, Tables.write_writes⟩
  · exact h.tableWrite_eq (State.writeTable_of_pending pending _)
  · exact h.tableWrite_eq ((written idle).trans (if_pos beyond))
  · refine h.tableWrite_eq ((written idle).trans ((if_neg (Nat.not_lt.2 fits)).trans ?_))
    rw [unread]
    rfl
  · refine h.tableWrite_eq ((written idle).trans ((if_neg (Nat.not_lt.2 fits)).trans ?_))
    rw [read]
    rfl

/-! ### Point entries -/

theorem PointEntry.length_bytes (e : PointEntry) : e.bytes.length = 30 := by
  simp [PointEntry.bytes]

theorem PointEntry.length_flatten (es : List PointEntry) :
    (es.map PointEntry.bytes).flatten.length = es.length * 30 := by
  simp [List.length_flatten, Function.comp_def, PointEntry.length_bytes]

theorem PointEntry.parseEntries_bytes {es : List PointEntry} (h : ∀ e, e ∈ es → e.sendable) :
    parseEntries PointEntry.parse 30 es.length (es.map PointEntry.bytes).flatten =
      some (es.map PointEntry.limited, es.any PointEntry.clamped) := by
  induction es with
  | nil => rfl
  | cons e es ih =>
    obtain ⟨he, hes⟩ := List.forall_mem_cons.1 h
    have front : (e.bytes ++ (es.map PointEntry.bytes).flatten).take 30 = e.bytes :=
      List.take_left' e.length_bytes
    have behind : (e.bytes ++ (es.map PointEntry.bytes).flatten).drop 30 = (es.map PointEntry.bytes).flatten :=
      List.drop_left' e.length_bytes
    rw [List.length_cons, parseEntries, List.map_cons, List.flatten_cons, front, behind,
      PointEntry.parse_bytes he, ih hes]
    rfl

/-- Settles O20: the entries are read as `PointEntry.parse_bytes` says, and `get_writeEntries_inside` reads
them back. -/
theorem writtenPointEntriesReadBack : Obligations.WrittenPointEntriesReadBack := by
  intro s received rest first es low high fits sendable idle h
  let written : Tables :=
    { s.ts.shadow with points := writeEntries .empty s.ts.shadow.points first (es.map PointEntry.limited) }
  have count : (es.map PointEntry.bytes).flatten.length / TableId.points.entrySize = es.length := by
    rw [PointEntry.length_flatten]
    exact Nat.mul_div_cancel _ (by decide)
  have write : s.ts.shadow.write .points first es.length (es.map PointEntry.bytes).flatten =
      some (written, es.any PointEntry.clamped) :=
    congrArg (Option.map _) (PointEntry.parseEntries_bytes sendable)
  have outcome := (State.writeTable_eq (table := .points) (data := (es.map PointEntry.bytes).flatten)
    (show first < 65536 by omega) idle).trans (if_neg (by rw [count]; exact Nat.not_lt.2 fits))
  rw [count, write] at outcome
  refine ⟨s.tableWritten rest _ written _, _, h.tableWrite_eq outcome, fun i hi low high => ?_,
    fun inRange => ⟨?_, ?_⟩, fun outside => ?_, fun p hp => ?_, rfl, rfl, ?_⟩
  · have inside : i - first < (es.map PointEntry.limited).length := by rw [List.length_map]; omega
    rw [List.getElem?_eq_getElem inside]
    exact congrArg some (get_writeEntries_inside _ inside (by dsimp only; omega)).symm
  · refine if_neg ?_
    simpa using fun e he => PointEntry.clamped_eq_false.2 (inRange e he)
  · exact (List.map_congr_left fun e he => PointEntry.limited_eq_self (inRange e he)).trans (List.map_id es)
  · refine if_pos ?_
    obtain ⟨e, he, hout⟩ := outside
    exact List.any_eq_true.2 ⟨e, he, eq_true_of_ne_false fun c => hout (PointEntry.clamped_eq_false.1 c)⟩
  · exact get_writeEntries_outside _ (by rwa [List.length_map])
  · exact ⟨fun b hb => by cases b <;> first | rfl | exact absurd (by decide) hb, rfl⟩

end Sys2Proof.Machine

/-! PROOFS. The refresh (R129, R130): a cursor stands for the records that its walk has still to place, and a
placement takes the first of them. -/

namespace Sys2Proof.Machine

/-! ### Ascending numbers from a number on -/

section Ascending

variable {k : Nat} {l : List (Fin k)}

/-- The numbers of a list from `n` on. -/
def numbersFrom (n : Nat) (l : List (Fin k)) : List (Fin k) := l.filter fun i => n ≤ i.val

@[simp] theorem numbersFrom_zero (l : List (Fin k)) : numbersFrom 0 l = l := by
  simp [numbersFrom]

theorem find?_eq_head?_numbersFrom (n : Nat) (l : List (Fin k)) :
    (l.find? fun i => n ≤ i.val) = (numbersFrom n l).head? := List.head?_filter.symm

theorem numbersFrom_succ {n : Nat} {i : Fin k} {rest : List (Fin k)} (ascending : l.Pairwise (· < ·))
    (h : numbersFrom n l = i :: rest) : numbersFrom (i.val + 1) l = rest := by
  have sorted : (i :: rest).Pairwise (· < ·) := h ▸ ascending.sublist List.filter_sublist
  have low : n ≤ i.val := by
    have member : i ∈ numbersFrom n l := h ▸ List.mem_cons_self
    simpa using (List.mem_filter.1 member).2
  have nested : numbersFrom (i.val + 1) (numbersFrom n l) = numbersFrom (i.val + 1) l := by
    rw [numbersFrom, numbersFrom, List.filter_filter]
    refine List.filter_congr fun j _ => ?_
    simp only [← Bool.decide_and, decide_eq_decide]
    omega
  rw [← nested, h, numbersFrom, List.filter_cons_of_neg (by simp), List.filter_eq_self]
  intro j hj
  have above : i < j := List.rel_of_pairwise_cons sorted hj
  exact decide_eq_true above

end Ascending

/-! ### What a cursor has still to place -/

section Walk

variable (s : State)

/-- The points that a refresh reports (R129). -/
def State.refreshPoints : List PointNo :=
  s.ts.active.points.keysWhere .empty fun e => e.isDefined && e.report

/-- The groups that a refresh reports (R129). -/
def State.refreshGroups : List GroupNo :=
  s.ts.active.groups.keysWhere .empty fun e => e.isDefined && e.report

/-- The modules that a refresh reports (R129). -/
def State.refreshModules : List ModuleNo :=
  s.ts.active.moduleMap.keysWhere .empty fun e => e.use ≠ .unused

/-- The records that the walk from MODULES has to place, next number `n`. -/
def State.modulesAhead (n : Nat) : List Record :=
  (numbersFrom n s.refreshModules).map (fun m => s.refreshRecord (.module m (s.moduleRec m).state)) ++
    [s.refreshRecord .refreshEnd]

/-- The records that the walk from GROUPS has to place. -/
def State.groupsAhead (n : Nat) : List Record :=
  (numbersFrom n s.refreshGroups).map (fun g => s.refreshRecord (.group g (s.groupRec g).code)) ++
    s.modulesAhead 0

/-- The records that the walk from POINTS has to place. -/
def State.pointsAhead (n : Nat) : List Record :=
  (numbersFrom n s.refreshPoints).map s.refreshPoint ++ s.groupsAhead 0

/-- The records that a cursor has to place; an absent one has none. -/
def State.ahead : Option Cursor → List Record
  | some (.points n) => s.pointsAhead n
  | some (.groups n) => s.groupsAhead n
  | some (.modules n) => s.modulesAhead n
  | some .atEnd => [s.refreshRecord .refreshEnd]
  | none => []

variable {s}

theorem State.refreshRecords_succ (room : Nat) (c : Cursor) : s.refreshRecords (room + 1) (some c) =
    ((s.place c).1 :: (s.refreshRecords room (s.place c).2).1, (s.refreshRecords room (s.place c).2).2) := rfl

/-- A walk that leaves room has ended the refresh. -/
theorem State.refreshRecords_ended {room : Nat} {c : Option Cursor}
    (left : (s.refreshRecords room c).1.length < room) : (s.refreshRecords room c).2 = none := by
  induction room generalizing c with
  | zero => exact absurd left (Nat.not_lt_zero _)
  | succ room ih =>
    cases c with
    | none => rfl
    | some c => exact ih (Nat.lt_of_succ_lt_succ left)

variable (h : s.Canonical)
include h

theorem State.modulesAhead_eq (n : Nat) :
    s.modulesAhead n = (s.placeModule n).1 :: s.ahead (s.placeModule n).2 := by
  have ascending : s.refreshModules.Pairwise (· < ·) := by
    obtain ⟨modules, -⟩ := h.active
    exact ((Table.wf_iff _ _).1 modules).1.sublist List.filter_sublist
  have next : s.eligibleModule n = (numbersFrom n s.refreshModules).head? :=
    find?_eq_head?_numbersFrom n s.refreshModules
  unfold State.placeModule
  rw [next, State.modulesAhead]
  cases here : numbersFrom n s.refreshModules with
  | nil => rfl
  | cons m rest =>
    simp only [List.head?_cons, State.ahead, State.modulesAhead, numbersFrom_succ ascending here]
    rfl

theorem State.groupsAhead_eq (n : Nat) :
    s.groupsAhead n = (s.placeGroup n).1 :: s.ahead (s.placeGroup n).2 := by
  have ascending : s.refreshGroups.Pairwise (· < ·) := by
    obtain ⟨-, -, groups, -⟩ := h.active
    exact ((Table.wf_iff _ _).1 groups).1.sublist List.filter_sublist
  have next : s.eligibleGroup n = (numbersFrom n s.refreshGroups).head? :=
    find?_eq_head?_numbersFrom n s.refreshGroups
  unfold State.placeGroup
  rw [next, State.groupsAhead]
  cases here : numbersFrom n s.refreshGroups with
  | nil => exact State.modulesAhead_eq h 0
  | cons g rest =>
    simp only [List.head?_cons, State.ahead, State.groupsAhead, numbersFrom_succ ascending here]
    rfl

theorem State.pointsAhead_eq (n : Nat) :
    s.pointsAhead n = (s.placePoint n).1 :: s.ahead (s.placePoint n).2 := by
  have ascending : s.refreshPoints.Pairwise (· < ·) := by
    obtain ⟨-, points, -⟩ := h.active
    exact ((Table.wf_iff _ _).1 points).1.sublist List.filter_sublist
  have next : s.eligiblePoint n = (numbersFrom n s.refreshPoints).head? :=
    find?_eq_head?_numbersFrom n s.refreshPoints
  unfold State.placePoint
  rw [next, State.pointsAhead]
  cases here : numbersFrom n s.refreshPoints with
  | nil => exact State.groupsAhead_eq h 0
  | cons p rest =>
    simp only [List.head?_cons, State.ahead, State.pointsAhead, numbersFrom_succ ascending here]
    rfl

/-- A placement takes the first record that the cursor has ahead. -/
theorem State.ahead_eq_place (c : Cursor) : s.ahead (some c) = (s.place c).1 :: s.ahead (s.place c).2 := by
  cases c with
  | points n => exact State.pointsAhead_eq h n
  | groups n => exact State.groupsAhead_eq h n
  | modules n => exact State.modulesAhead_eq h n
  | atEnd => rfl

/-- A walk with room for all that is ahead places it and ends the refresh. -/
theorem State.refreshRecords_complete {room : Nat} {c : Option Cursor} (enough : (s.ahead c).length ≤ room) :
    s.refreshRecords room c = (s.ahead c, none) := by
  induction room generalizing c with
  | zero =>
    cases c with
    | none => rfl
    | some c => rw [State.ahead_eq_place h c] at enough; exact absurd enough (Nat.not_succ_le_zero _)
  | succ room ih =>
    cases c with
    | none => rfl
    | some c =>
      rw [State.ahead_eq_place h c] at enough ⊢
      have behind := ih (Nat.le_of_succ_le_succ enough)
      rw [State.refreshRecords_succ, behind]

end Walk

/-- Settles O31: from POINTS 0 on the cursor has all of them ahead. -/
theorem refreshWalkReportsEachItemOnce : Obligations.RefreshWalkReportsEachItemOnce := by
  intro s room h t points groups modules refreshed enough
  obtain ⟨moduleMap, pointTable, groupTable, -, -⟩ := h.active
  have hpoints : s.refreshPoints = points := keysWhere_eq_filter rfl pointTable
  have hgroups : s.refreshGroups = groups := keysWhere_eq_filter rfl groupTable
  have hmodules : s.refreshModules = modules := keysWhere_eq_filter rfl moduleMap
  have ahead : s.ahead (some (.points 0)) = points.map s.refreshPoint ++
      (groups.map (fun g => refreshed (.group g (s.groupRec g).code)) ++
        (modules.map (fun m => refreshed (.module m (s.moduleRec m).state)) ++ [refreshed .refreshEnd])) := by
    simp only [State.ahead, State.pointsAhead, State.groupsAhead, State.modulesAhead, numbersFrom_zero,
      hpoints, hgroups, hmodules]
    rfl
  rw [State.refreshRecords_complete h, ahead]
  · simp only [List.append_assoc]
    rfl
  · rw [ahead]
    simp only [List.length_append, List.length_map, List.length_singleton]
    omega

end Sys2Proof.Machine

/-! PROOFS. INDICATION and ANSWER: what assembly draws (R131, R143), and the bytes on the desk link (R168, R170,
R171). -/

namespace Sys2Proof.Machine

/-! ### The CRC, bit by bit -/

/-- One bit of data into the CRC register. -/
def crcShiftIn (c : BitVec 16) (bit : Bool) : BitVec 16 :=
  if (c.msb ^^ bit) = true then (c <<< 1) ^^^ 0x1021#16 else c <<< 1

/-- A step on the register with the data ahead of it takes in the foremost bit. -/
theorem crcBit_xor (c y : BitVec 16) : crcBit (c ^^^ y) = crcShiftIn c y.msb ^^^ (y <<< 1) := by
  rw [crcBit, crcShiftIn, BitVec.msb_xor, BitVec.shiftLeft_xor_distrib]
  split
  · rw [BitVec.xor_assoc, BitVec.xor_comm (y <<< 1), ← BitVec.xor_assoc]
  · rfl

theorem crcBit_iterate_xor (n : Nat) (c y : BitVec 16) : crcBit^[n] (c ^^^ y) =
    (((List.range n).map fun k => (y <<< k).msb).foldl crcShiftIn c) ^^^ (y <<< n) := by
  induction n with
  | zero => simp
  | succ n ih =>
    rw [Function.iterate_succ_apply', ih, crcBit_xor, List.range_succ, List.map_append, List.foldl_append,
      ← BitVec.shiftLeft_add]
    rfl

/-- Bit `7 - k` of a byte stands foremost in the register after `k` steps. -/
theorem msb_byte_shiftLeft (b : Byte) {k : Nat} (h : k < 8) :
    ((b.zeroExtend 16 <<< 8) <<< k).msb = b.getLsbD (7 - k) := by
  have place : 15 - k - 8 = 7 - k := by omega
  simp only [BitVec.msb_eq_getLsbD_last, BitVec.getLsbD_shiftLeft, BitVec.truncate_eq_setWidth,
    BitVec.getLsbD_setWidth, Nat.add_one_sub_one, place]
  simp [show ¬ 15 < k by omega, show 15 - k < 16 by omega, show ¬ 15 - k < 8 by omega, show 7 - k < 16 by omega]

theorem crcByte_eq_foldl (c : BitVec 16) (b : Byte) :
    crcByte c b = ((List.range 8).map fun k => b.getLsbD (7 - k)).foldl crcShiftIn c := by
  have steps : crcByte c b = crcBit^[8] (c ^^^ (b.zeroExtend 16 <<< 8)) := rfl
  have gone : (b.zeroExtend 16 <<< 8) <<< 8 = (0 : BitVec 16) := by
    rw [← BitVec.shiftLeft_add]
    exact BitVec.shiftLeft_eq_zero (by decide)
  have bits : ((List.range 8).map fun k => ((b.zeroExtend 16 <<< 8) <<< k).msb) =
      (List.range 8).map fun k => b.getLsbD (7 - k) :=
    List.map_congr_left fun k hk => msb_byte_shiftLeft b (List.mem_range.1 hk)
  rw [steps, crcBit_iterate_xor, gone, bits]
  exact BitVec.xor_zero

theorem crc16_eq_foldl (bytes : List Byte) : crc16 bytes =
    (bytes.flatMap fun b => (List.range 8).map fun k => b.getLsbD (7 - k)).foldl crcShiftIn 0xFFFF#16 := by
  rw [List.foldl_flatMap]
  exact congrArg (fun f => bytes.foldl f 0xFFFF#16) (funext₂ crcByte_eq_foldl)

/-! ### Numbers, most significant byte first -/

theorem u8_toNat (n : Nat) : (u8 n).map BitVec.toNat = [n % 256] := rfl

theorem u16_toNat (n : Nat) : (u16 n).map BitVec.toNat = [n / 256 % 256, n % 256] := rfl

theorem u32_toNat (t : Time) : (u32 t).map BitVec.toNat =
    [t.toNat / 16777216, t.toNat / 65536 % 256, t.toNat / 256 % 256, t.toNat % 256] := by
  have := t.isLt
  simp only [u32, List.map_cons, List.map_nil, BitVec.truncate_eq_setWidth, BitVec.toNat_setWidth,
    BitVec.toNat_ushiftRight, Nat.shiftRight_eq_div_pow]
  norm_num
  omega

theorem crcBytes_toNat (bytes : List Byte) :
    (crcBytes bytes).map BitVec.toNat = [(crc16 bytes).toNat / 256, (crc16 bytes).toNat % 256] := by
  have := (crc16 bytes).isLt
  simp only [crcBytes, List.map_cons, List.map_nil, BitVec.truncate_eq_setWidth, BitVec.toNat_setWidth,
    BitVec.toNat_ushiftRight, Nat.shiftRight_eq_div_pow]
  norm_num
  omega

/-! ### Flag bits -/

/-- The number whose bits are the flags of a list, the first in bit 0 (R171). -/
def flagNumber : List Bool → Nat
  | [] => 0
  | b :: l => b.toNat + 2 * flagNumber l

theorem testBit_flagNumber (l : List Bool) (k : Nat) : (flagNumber l).testBit k = l.getD k false := by
  induction l generalizing k with
  | nil => simp [flagNumber]
  | cons b l ih =>
    rw [flagNumber]
    cases k with
    | zero => cases b <;> simp [Nat.testBit_zero, Nat.add_mod]
    | succ k =>
      have half : (b.toNat + 2 * flagNumber l) / 2 = flagNumber l := by
        have := b.toNat_lt
        omega
      rw [Nat.testBit_succ, half, ih]
      rfl

theorem flagNumber_bits {n : Nat} {l : List Bool} (h : n = flagNumber l) (length : l.length = 8) :
    (List.range 8).map (BitVec.ofNat 8 n).getLsbD = l := by
  refine List.ext_getElem (by simp [length]) fun k hk hl => ?_
  have small : k < 8 := by rwa [length] at hl
  rw [List.getElem_map, List.getElem_range, BitVec.getLsbD_ofNat, h, testBit_flagNumber, decide_eq_true small,
    Bool.true_and, List.getD_eq_getElem _ _ hl]

theorem ite_flag (b : Bool) (n : Nat) : (if b then n else 0) = n * b.toNat := by
  cases b <;> simp

theorem Header.flags_bits (h : Header) : (List.range 8).map (BitVec.ofNat 8 h.flags).getLsbD =
    [h.configured, h.commitPending, h.keyPresented, h.queueHigh, h.linkSilent, h.moduleLost,
      h.channelFaulted, false] := by
  refine flagNumber_bits ?_ rfl
  simp only [Header.flags, flagNumber, ite_flag, Bool.toNat_false]
  omega

/-! ### The header -/

theorem Table.any_iff {n : Nat} {α : Type} {d : α} {p : α → Bool} (hd : p d = false) {t : Table n α}
    (h : (Table.keys t).Pairwise (· < ·)) :
    (t.any fun e => p e.2) = true ↔ ∃ i, p (Table.get d t i) = true := by
  induction t with
  | nil => simp [hd]
  | cons e t ih =>
    obtain ⟨k, v⟩ := e
    obtain ⟨above, rest⟩ := List.pairwise_cons.1 h
    have absent : Table.get d t k = d :=
      Table.get_eq_of_not_mem _ _ _ fun member => lt_irrefl k (above k member)
    rw [List.any_cons, Bool.or_eq_true, ih rest]
    constructor
    · rintro (front | ⟨i, behind⟩)
      · exact ⟨k, by simpa [Table.get] using front⟩
      · refine ⟨i, ?_⟩
        have other : k ≠ i := by
          rintro rfl
          rw [absent, hd] at behind
          cases behind
        simpa [Table.get, other] using behind
    · rintro ⟨i, found⟩
      by_cases hk : k = i
      · exact .inl (by simpa [Table.get, hk] using found)
      · exact .inr ⟨i, by simpa [Table.get, hk] using found⟩

theorem State.anyModuleLost_iff {s : State} :
    s.anyModuleLost = true ↔ ∃ m, s.useOf m ≠ .unused ∧ (s.moduleRec m).state = .lost := by
  simp [State.anyModuleLost]

theorem State.anyChannelFaulted_iff {s : State} (h : s.Canonical) :
    s.anyChannelFaulted = true ↔ ∃ m j c, s.channel m j = some c ∧ c.isFaulted = true := by
  have outer := Table.any_iff (d := none) (p := fun v : Option (Table 32 Channel) =>
    match v with
    | none => false
    | some bank => bank.any fun c => c.2.isFaulted) rfl ((Table.wf_iff _ _).1 h.channels).1
  refine outer.trans (exists_congr fun m => ?_)
  have held : Table.get none s.channels m = s.channelBank m := rfl
  rw [held]
  cases bank : s.channelBank m with
  | none => simp [State.channel, bank]
  | some b =>
    have inner := Table.any_iff (d := .init) (p := Channel.isFaulted) rfl ((Table.wf_iff _ _).1 (h.banks m b bank)).1
    refine inner.trans (exists_congr fun j => ?_)
    simp [State.channel, bank]

/-! ### Assembly -/

theorem State.place_refresh (s : State) (c : Cursor) :
    (s.place c).1.refresh = true ∧ (s.place c).1.deskTime = s.deskTime s.now := by
  have module (n : Nat) : (s.placeModule n).1.refresh = true ∧ (s.placeModule n).1.deskTime = s.deskTime s.now := by
    unfold State.placeModule
    split <;> exact ⟨rfl, rfl⟩
  have group (n : Nat) : (s.placeGroup n).1.refresh = true ∧ (s.placeGroup n).1.deskTime = s.deskTime s.now := by
    unfold State.placeGroup
    split
    · exact ⟨rfl, rfl⟩
    · exact module 0
  cases c with
  | points n =>
    simp only [State.place, State.placePoint]
    split
    · exact ⟨rfl, rfl⟩
    · exact group 0
  | groups n => exact group n
  | modules n => exact module n
  | atEnd => exact ⟨rfl, rfl⟩

theorem State.refreshRecords_refresh (s : State) {room : Nat} {c : Option Cursor} {r : Record}
    (h : r ∈ (s.refreshRecords room c).1) : r.refresh = true ∧ r.deskTime = s.deskTime s.now := by
  induction room generalizing c with
  | zero => cases h
  | succ room ih =>
    cases c with
    | none => cases h
    | some c =>
      rcases List.mem_cons.1 h with rfl | behind
      · exact s.place_refresh c
      · exact ih behind

theorem State.refreshRecords_none (s : State) (room : Nat) : s.refreshRecords room none = ([], none) := by
  cases room <;> rfl

/-! ### Records -/

theorem RecordContent.length_bytes (c : RecordContent) : c.bytes.length = 7 := by
  cases c with
  | point p reported substituted extra => cases extra <;> simp [RecordContent.bytes, PointExtra.bytes]
  | trace p levels gap => simp [RecordContent.bytes]
  | _ => rfl

/-- The flag bits of a record: REFRESH, and the three of its kind. -/
theorem recordFlags_bits (r a b c : Bool) : (List.range 8).map (BitVec.ofNat 8 ((if r then 1 else 0) +
    ((if a then 2 else 0) + ((if b then 4 else 0) + (if c then 8 else 0))))).getLsbD =
      [r, a, b, c, false, false, false, false] := by
  refine flagNumber_bits ?_ rfl
  simp only [flagNumber, ite_flag, Bool.toNat_false]
  omega

theorem flag_eq (b : Bool) : flag b = [if b then 1 else 0] := by cases b <;> rfl

/-- Settles O30: what assembly draws, and the bytes of what is sent. -/
theorem indicationDrawsQueueThenRefresh : Obligations.IndicationDrawsQueueThenRefresh := by
  refine ⟨fun s h => ?_, fun n t => ⟨u8_toNat n, u16_toNat n, u32_toNat t⟩, ?_, ⟨rfl, rfl, rfl, rfl, rfl, rfl⟩,
    ?_, fun h => ⟨_, rfl, h.flags_bits⟩, fun r => ?_⟩
  · have drawn : (s.cq.queue.take 16).length = min 16 s.cq.queue.length := List.length_take
    have room := s.refreshRecords_length (16 - (s.cq.queue.take 16).length) s.cq.cursor
    refine ⟨State.header { s with cq := { s.cq with queue := s.cq.queue.drop 16 } }
      (s.cq.queue.take 16 ++ (s.refreshRecords (16 - (s.cq.queue.take 16).length) s.cq.cursor).1).length,
      _, _, rfl, rfl, ?_, fun r => s.refreshRecords_refresh, ?_, ?_, rfl, ?_, rfl, ?_, ?_, rfl,
      State.anyModuleLost_iff, State.anyChannelFaulted_iff (s := s) h, rfl, rfl⟩
    · rw [List.length_append]
      omega
    · rintro (idle | full)
      · rw [idle, State.refreshRecords_none]
        exact ⟨rfl, rfl⟩
      · rw [drawn, Nat.min_eq_left full]
        exact ⟨rfl, rfl⟩
    · exact fun left => State.refreshRecords_ended (by omega)
    · exact decide_eq_true_iff
    · exact decide_eq_true_iff
    · refine decide_eq_true_iff.trans ?_
      rw [← List.length_drop]
      exact Iff.rfl
  · intro bytes shiftIn bits crc
    rw [crcBytes_toNat, crc16_eq_foldl]
    rfl
  · intro a h records sent
    exact ⟨rfl, rfl⟩
  · refine ⟨_, _, _, rfl, r.content.length_bytes, ?_⟩
    obtain ⟨refresh, deskTime, content⟩ := r
    cases content with
    | point p reported substituted extra =>
      cases extra with
      | none => cases reported <;> exact ⟨rfl, recordFlags_bits _ _ false false, rfl⟩
      | transfer time slow =>
        cases reported <;> cases slow <;> exact ⟨rfl, recordFlags_bits _ _ true false, rfl⟩
      | period period duty => cases reported <;> exact ⟨rfl, recordFlags_bits _ _ false true, rfl⟩
    | group g code => cases code <;> exact ⟨rfl, recordFlags_bits _ false false false, rfl⟩
    | commandResult c result => exact ⟨rfl, recordFlags_bits _ false false false, rfl⟩
    | module m state => exact ⟨rfl, recordFlags_bits _ false false false, rfl⟩
    | channel m j clear => exact ⟨rfl, recordFlags_bits _ _ false false, rfl⟩
    | trace p levels gap =>
      refine ⟨rfl, recordFlags_bits refresh gap levels.b.isSome false, ?_⟩
      obtain ⟨a, b⟩ := levels
      simp only [RecordContent.bytes, flag_eq]
      rfl
    | overflow => exact ⟨rfl, recordFlags_bits _ false false false, rfl⟩
    | refreshEnd => exact ⟨rfl, recordFlags_bits _ false false false, rfl⟩

end Sys2Proof.Machine

/-! PROOFS. DIAG_READ (R165, R171): the contents field by field, and the answer. -/

namespace Sys2Proof.Machine

/-! ### Optional fields -/

section Optional

variable {α : Type} (f : α → List Byte)

theorem optional_ite (c : Prop) [Decidable c] (v : α) :
    optional f (if c then some v else none) = if c then [1] ++ f v else [0] := by
  split <;> rfl

end Optional

/-! ### The answer -/

section Answer

variable {s : State} {selector : Byte} {index : Nat} {received : Time} {rest : List RxTelegram}

theorem namesSelector_of_named {k : Nat} (h : selector.toNat = k) :
    namesSelector k ([selector] ++ u16 index) = true := by
  have named : num8 ([selector] ++ u16 index) 0 = k := h
  rw [namesSelector, named]
  simp

theorem namesSelector_of_unnamed (h : 5 ≤ selector.toNat) (k : Nat) :
    namesSelector k ([selector] ++ u16 index) = true := by
  have beyond : 4 < num8 ([selector] ++ u16 index) 0 := h
  simp only [namesSelector, beyond, decide_true, Bool.or_true]

variable {k count : Nat} {contents : State → Fin count → List Byte}

/-- A DIAG_READ with a selector that names contents by their index. -/
theorem State.Obeys.diagRead_eq (h : s.Obeys .diagRead ([selector] ++ u16 index) received rest)
    (hindex : index < 65536) (named : selector.toNat = k)
    (same : ∀ i, contents (s.answered rest []) i = contents s i) :
    (∀ i : Fin count, i.val = index →
      s.occur (State.dispatch .diagRead (namesSelector k) fun t s => s.takeDiagRead t k count contents) =
        .next (s.answered rest [⟨0x0B, .accepted, contents s i⟩]).transmitNext) ∧
    (count ≤ index →
      s.occur (State.dispatch .diagRead (namesSelector k) fun t s => s.takeDiagRead t k count contents) =
        .next (s.answered rest [⟨0x0B, .outOfRange, []⟩]).transmitNext) := by
  have number : num16 ([selector] ++ u16 index) 1 = index := num16_u16 index hindex []
  have code : num8 ([selector] ++ u16 index) 0 = k := named
  rw [h.dispatch_eq (namesSelector_of_named named)]
  unfold State.takeDiagRead
  dsimp only
  rw [if_neg (not_not.2 code)]
  simp only [number]
  refine ⟨?_, fun beyond => ?_⟩
  · rintro i rfl
    rw [dif_pos i.isLt, same]
    rfl
  · rw [dif_neg (Nat.not_lt.2 beyond)]
    rfl

/-- A DIAG_READ with a selector that names none of the contents, by any of its rows (log entry 5). -/
theorem State.Obeys.diagRead_unnamed (h : s.Obeys .diagRead ([selector] ++ u16 index) received rest)
    (unnamed : 5 ≤ selector.toNat) (hk : k ≤ 4) :
    s.occur (State.dispatch .diagRead (namesSelector k) fun t s => s.takeDiagRead t k count contents) =
      .next (s.answered rest [⟨0x0B, .outOfRange, []⟩]).transmitNext := by
  have other : num8 ([selector] ++ u16 index) 0 ≠ k := by
    change selector.toNat ≠ k
    omega
  rw [h.dispatch_eq (namesSelector_of_unnamed unnamed k)]
  unfold State.takeDiagRead
  dsimp only
  rw [if_pos other]
  rfl

theorem State.Obeys.diagReadPart_eq (h : s.Obeys .diagRead ([selector] ++ u16 index) received rest)
    (named : selector.toNat = 4) : exec .diagReadPart s =
      .next (s.answered rest [⟨0x0B, .accepted, s.diagPart⟩]).transmitNext := by
  have code : num8 ([selector] ++ u16 index) 0 = 4 := named
  refine (h.dispatch_eq (namesSelector_of_named named) _).trans ?_
  dsimp only
  rw [if_pos code]
  rfl

theorem State.Obeys.diagReadPart_unnamed (h : s.Obeys .diagRead ([selector] ++ u16 index) received rest)
    (unnamed : 5 ≤ selector.toNat) : exec .diagReadPart s =
      .next (s.answered rest [⟨0x0B, .outOfRange, []⟩]).transmitNext := by
  have other : num8 ([selector] ++ u16 index) 0 ≠ 4 := by
    change selector.toNat ≠ 4
    omega
  refine (h.dispatch_eq (namesSelector_of_unnamed unnamed 4) _).trans ?_
  dsimp only
  rw [if_neg other]
  rfl

theorem State.Obeys.diagRead_outOfRange (h : s.Obeys .diagRead ([selector] ++ u16 index) received rest)
    (unnamed : 5 ≤ selector.toNat) {c : Instr} (hc : kindOf c = some .diagRead) :
    exec c s = .next (s.answered rest [⟨0x0B, .outOfRange, []⟩]).transmitNext := by
  cases c with
  | diagReadPoint => exact h.diagRead_unnamed unnamed (by decide)
  | diagReadGroup => exact h.diagRead_unnamed unnamed (by decide)
  | diagReadModule => exact h.diagRead_unnamed unnamed (by decide)
  | diagReadSlot => exact h.diagRead_unnamed unnamed (by decide)
  | diagReadPart => exact h.diagReadPart_unnamed unnamed
  | _ => cases hc

end Answer

/-- Settles O28: the contents by unfolding them field by field, the answers by `State.Obeys.diagRead_eq`. -/
theorem diagReadAnswersTheContents : Obligations.DiagReadAnswersTheContents := by
  constructor
  · intro s opt ms stateBytes
    have field {α : Type} (f : α → List Byte) (o : Option α) : optional f o = opt (o.map f) := by
      cases o <;> rfl
    have state (x : PointState) : x.bytes = stateBytes x := by cases x <;> rfl
    have present (bytes : List Byte) : opt (some bytes) = [1] ++ bytes := rfl
    have time : millis4 = ms := rfl
    have cursor : Cursor.bytes = fun c =>
        match c with
        | .points n => [0] ++ u16 n
        | .groups n => [1] ++ u16 n
        | .modules n => [2] ++ u16 n
        | .atEnd => [3, 0, 0] := by
      funext c
      cases c <;> rfl
    have key : u8 (keyCode s.ts.key) = if s.ts.key = .presented then [0] else [1] := by
      cases s.ts.key <;> rfl
    refine ⟨fun p => ?_, fun g => ?_, fun m => ?_, fun k => ⟨fun free => ?_, fun sl held => ?_⟩, ?_⟩
    · dsimp only [State.diagPoint]
      rw [optional_ite, optional_ite]
      simp only [field, state, time, PointRecord.substituted]
    · simp only [State.diagGroup, field, List.append_assoc]
      cases (s.groupRec g).code <;> rfl
    · dsimp only [State.diagModule]
      rw [optional_ite]
      simp only [field]
      rfl
    · simp only [State.diagSlot, free]
      rfl
    · simp only [State.diagSlot, held, field, Option.map_some, Option.bind_some, present, List.append_assoc]
      cases sl.phase <;> rfl
    · simp only [State.diagPart, field, cursor, key, State.configured, State.now]
      cases s.pe.tracedPoint <;> rfl
  · intro s received rest selector index hindex h accepted refused
    refine ⟨?_, ?_, ?_, ?_, ?_, fun unnamed c => h.diagRead_outOfRange unnamed⟩
    · rintro rfl
      exact h.diagRead_eq hindex rfl fun _ => rfl
    · rintro rfl
      exact h.diagRead_eq hindex rfl fun _ => rfl
    · rintro rfl
      exact h.diagRead_eq hindex rfl fun _ => rfl
    · rintro rfl
      exact h.diagRead_eq hindex rfl fun _ => rfl
    · rintro rfl
      exact h.diagReadPart_eq rfl

end Sys2Proof.Machine
